-- ==== Sys2Proof/Word.lean ====
section
/-! DEFINITION. The plain word types: a byte, a label character, a label, and the form in which sparse tables are kept. -/

namespace Sys2Proof

/-- A byte of the command port, of a client frame or of a carrier frame. -/
abbrev Byte := BitVec 8

/-- A label character: 7 bits (R13). -/
abbrev Char7 := BitVec 7

/-- A label: eight characters (R13, R32). -/
abbrev Label := List Char7

/-- A table by number, as a list of (number, value) pairs. Its canonical form is `Sparse.wf` (Machine/Ops.lean):
numbers strictly rising. A number that is not listed reads as the table's default. -/
abbrev Sparse (α : Type) := List (Nat × α)

end Sys2Proof
end

