-- ==== Sys2Proof/Config.lean ====
section
/-! DEFINITION. What the part fixes (the constants of the manual) and the one free value. -/

namespace Sys2Proof.Config

/-- The nominal frame, 125 microseconds, in picoseconds (chapter 1; the unit is the model's, log 1: DESIGN CHOICE). -/
def framePs : Nat := 125000000

/-- Half of the reference window, 1/16 frame = 7.8125 microseconds, in picoseconds (section 1.1.1). -/
def windowPs : Nat := 7812500

/-- Carrier bytes in one frame: 8 + 432 * 95 (section 1.3). -/
def carrierBytes : Nat := 41048

/-- Berths of one carrier (section 1.3). -/
def berths : Nat := 432

/-- Highway cells of one frame (R15). -/
def cells : Nat := 1024

/-- The free value: the share of its segment that a burst or a cell takes, as a weight beside the other shares of the
segment: by segment (0..15) and slot, 0 for the burst and i + 1 for the cell i of the segment. R15 fixes their order and
gives no lengths (log 8: DESIGN CHOICE). It is read only where a capture measures the time to a decision point at a cell
(R11, R23). -/
opaque slotShare : Nat → Nat → Nat

end Sys2Proof.Config
end

