-- ==== Sys2Proof/Syntax.lean ====
section
/-! DEFINITION. The commands of the part: one constructor of `Instr` for each row of spec/opcode_table.json, with the
operand forms they carry. -/

namespace Sys2Proof

/-- The five control codes of a berth or cell (R13, R190). -/
inductive Code where
  | normal | extra | short | maintenance | idle
  deriving DecidableEq, Repr

/-- The role of a path record (R37). -/
inductive Role where
  /-- LOCAL: both endpoints are on this card. -/
  | loc
  /-- SOURCE: the sink is on another station. -/
  | source
  /-- SINK: the source is on another station. -/
  | sink
  deriving DecidableEq, Repr

/-- Reasons of a REFUSE, in the order of their codes 1..5 (R190). -/
inductive RefuseReason where
  | noPath | sizeMismatch | notReady | sinkBusy | cellConflict
  deriving DecidableEq, Repr

/-- Reasons of a RELEASE, in the order of their codes 1..6 (R190). -/
inductive ReleaseReason where
  | deleted | disabled | moved | collision | withdrawn | sinkGone
  deriving DecidableEq, Repr

/-- The fields that every highway message carries besides its kind, reason and check (R109); `size` is k. -/
structure MsgBody where
  sender    : Nat
  addressee : Nat
  tag       : Nat
  first     : Nat
  size      : Nat
  move      : Bool
  deriving DecidableEq, Repr

/-- A highway message (R109). -/
inductive Msg where
  | claim (b : MsgBody)
  | accept (b : MsgBody)
  | refuse (b : MsgBody) (r : RefuseReason)
  | release (b : MsgBody) (r : ReleaseReason)
  deriving DecidableEq, Repr

/-- One berth as a carrier receiver reads it: three control-code copies, the label position, 91 payload positions
(R13, R27). -/
structure RxBerth where
  copy1   : Byte
  copy2   : Byte
  copy3   : Byte
  label   : Byte
  payload : List Byte
  deriving DecidableEq, Repr

/-- One received carrier frame: the four bytes at the pattern's place, the index byte, and the berths that were read,
by berth number (R27). A berth that is not listed was not read, as after a loss within the frame. -/
structure RxFrame where
  pattern : List Byte
  index   : Byte
  berths  : List (Nat × RxBerth)
  deriving DecidableEq, Repr

/-- The condition kinds, in the order of their codes 1..12 (R191). -/
inductive CondKind where
  | refLost | clientLos | clientLoa | carrierLos | carrierLoa | sourceDefect | cellLoss | cellCheck | labelMismatch
  | squelched | fillSlip | messageCheck
  deriving DecidableEq, Repr

/-- The object of a condition (R169). -/
inductive CondObj where
  | station
  | carrier (c : Nat)
  | port (p : Nat)
  | path (h : Nat)
  deriving DecidableEq, Repr

/-- An endpoint as ADD PATH carries it: type (absent 0, client port 1, carrier 2), number, berth (R191). -/
structure EpParam where
  type   : Nat
  number : Nat
  berth  : Nat
  deriving DecidableEq, Repr

/-- The parameters of START (R186, R191). Bit g of `sizing` is set when port group g is MEDIUM. -/
structure StartP where
  station : Nat
  sizing  : BitVec 8
  h       : Nat
  n       : Nat
  i       : Nat
  m       : Nat
  timeout : Nat
  expiry  : Nat
  guard   : Nat
  holdoff : Nat
  deriving DecidableEq, Repr

/-- The parameters of ADD PATH (R43, R191). -/
structure AddP where
  tag      : Nat
  role     : Nat
  size     : Nat
  source   : EpParam
  sink     : EpParam
  remote   : Nat
  hasLabel : Nat
  label    : Label
  squelch  : BitVec 7
  deriving DecidableEq, Repr

/-- The parameters of LABEL SCAN (R160, R191). -/
structure ScanP where
  carrier : Nat
  size    : Nat
  first   : Nat
  last    : Nat
  step    : Nat
  mode    : Nat
  pattern : Label
  skip    : Nat
  deriving DecidableEq, Repr

/-- The parameters of SET REPORT (R176, R191). -/
structure ReportP where
  kind    : Nat
  type    : Nat
  raiseM  : Nat
  raiseE  : Nat
  clearM  : Nat
  clearE  : Nat
  repeatM : Nat
  repeatE : Nat
  deriving DecidableEq, Repr

/-- A command of the host, with its parameters as R191 decodes them. -/
inductive HostCmd where
  | start (p : StartP)
  | addPath (p : AddP)
  | deletePath (h : Nat)
  | enablePath (h : Nat)
  | disablePath (h : Nat)
  | movePath (h form carrier berth : Nat)
  | recentre (h : Nat)
  | nudge (h dir count : Nat)
  | squelch (h flag : Nat)
  | readPath (h : Nat)
  | readCells (first count : Nat)
  | labelScan (p : ScanP)
  | sense
  | readConditions
  | setReport (p : ReportP)
  | defaults
  | quiet
  | resume
  | readStation
  deriving DecidableEq, Repr

/-- The commands of the block: one constructor per row of spec/opcode_table.json. An instant `t` is in picoseconds on
the model's time scale (log 1: DESIGN CHOICE); `h` is a handle, `p` a client port, `c` a carrier, `b` a berth, `x` a cell. -/
inductive Instr where
  /-- DEVICE_RESET (R2, 5.4). -/
  | deviceReset
  /-- IN_WINDOW_PULSE (R1, R3, R5): a reference pulse at `t`, with or without the multiframe marker. -/
  | inWindowPulse (t : Nat) (marker : Bool)
  /-- OUT_OF_WINDOW_PULSE (R1, R3, R5). -/
  | outOfWindowPulse (t : Nat) (marker : Bool)
  /-- MISSING_PULSE (R1, R3, R5): the window closes with no pulse in it. -/
  | missingPulse
  /-- HOLDOVER_ENTRY (R4): the miss that brings the miss count to 3. -/
  | holdoverEntry
  /-- TRACKING_RETURN (R6): the eighth consecutive in-window pulse in HOLDOVER, at `t`. -/
  | trackingReturn (t : Nat)
  /-- FRAME_START (R10): FTM starts a frame one period after the last. -/
  | frameStart
  /-- DECISION_POINT (R71) of a path. -/
  | decisionPoint (h : Nat)
  /-- WINDOW_END (R76): the offset window of a path ends. -/
  | windowEnd (h : Nat)
  /-- STORE_READ (R69): one byte from the store to the output stage. -/
  | storeRead (h : Nat)
  /-- INPUT_STAGE_WRITE (R65): one byte from the input stage to the store. -/
  | inputStageWrite (h : Nat)
  /-- FILL_WRITE (R66): one fill byte to the store of a source that is not delivering. -/
  | fillWrite (h : Nat)
  /-- CLIENT_BYTE_RECEIVED (R18 to R22): one byte on a client port, whether its byte time held a data transition,
  and the instant at which it ends. -/
  | clientByteReceived (p : Nat) (b : Byte) (transition : Bool) (t : Nat)
  /-- CLIENT_LOS_ONSET (R21): the 32nd consecutive byte time without a transition ends. -/
  | clientLosOnset (p : Nat)
  /-- CLIENT_ALIGNED (R19): the fourth confirming word, in normal or maintenance form, ending at `t`. -/
  | clientAligned (p : Nat) (maint : Bool) (t : Nat)
  /-- CLIENT_ALIGNMENT_LOSS (R20): the fourth consecutive missing word. -/
  | clientAlignmentLoss (p : Nat)
  /-- CARRIER_BYTE_RECEIVED (R27). -/
  | carrierByteReceived (c : Nat) (b : Byte) (transition : Bool)
  /-- CARRIER_LOS_ONSET (R28). -/
  | carrierLosOnset (c : Nat)
  /-- CARRIER_ALIGNED (R27): the fourth confirming pattern. -/
  | carrierAligned (c : Nat)
  /-- CARRIER_ALIGNMENT_LOSS (R27): the fourth consecutive missing pattern. -/
  | carrierAlignmentLoss (c : Nat)
  /-- CARRIER_FRAME_RECEIVED (R27, R29 to R33, R162 to R166). -/
  | carrierFrameReceived (c : Nat) (f : RxFrame)
  /-- SCAN_STALL (R163): the received frame that brings the stall count to 16. -/
  | scanStall
  /-- GROUP_START (R85): the start of the outgoing berth group whose first berth is `b`. -/
  | groupStart (c b : Nat)
  /-- SQUELCH_LIFT (R95). -/
  | squelchLift (h : Nat)
  /-- ANSWER_DROP (R108). -/
  | answerDrop
  /-- CONTROL_BURST (R104): what the other stations drive in each bit (1 where none drives), and the bits that noise
  flips; bit 50 is the first bit sent. -/
  | controlBurst (others noise : BitVec 51)
  /-- CLAIM (R115, R130): a heard CLAIM. -/
  | claim (m : MsgBody)
  /-- ACCEPT (R116, R128): a heard ACCEPT. -/
  | accept (m : MsgBody)
  /-- REFUSE (R116, R134): a heard REFUSE. -/
  | refuse (m : MsgBody) (r : RefuseReason)
  /-- RELEASE (R117, R132, R143): a heard RELEASE. -/
  | release (m : MsgBody) (r : ReleaseReason)
  /-- HIGHWAY_CELL (R112, R113): the header the other stations drive (all ones where none drives), the header bits
  that noise flips, and the payload they drive; bit 41 is the first bit sent. -/
  | highwayCell (x : Nat) (others noise : BitVec 42) (payload : List Byte)
  /-- BACKOFF_END (R123). -/
  | backoffEnd (h : Nat)
  /-- CLAIM_EXPIRY (R129, R152). -/
  | claimExpiry (h : Nat)
  /-- CELL_LOSS_FALLBACK (R141). -/
  | cellLossFallback (h : Nat)
  /-- CLEAN_COUNT_EXPIRY (R137). -/
  | cleanCountExpiry (h : Nat)
  /-- SILENT_CELL_EXPIRY (R119). -/
  | silentCellExpiry (x : Nat)
  /-- RESERVATION_AGE_EXPIRY (R118). -/
  | reservationAgeExpiry (x : Nat)
  /-- WARMING_END (R101). -/
  | warmingEnd
  /-- BERTH_MOVE_SWITCH (R149). -/
  | berthMoveSwitch (h : Nat)
  /-- CELL_MOVE_SWITCH (R153). -/
  | cellMoveSwitch (h : Nat)
  /-- SINK_CELL_MOVE_SWITCH (R154). -/
  | sinkCellMoveSwitch (h : Nat)
  /-- SOAK_EXPIRY (R171). -/
  | soakExpiry (k : CondKind) (o : CondObj)
  /-- REPEAT_EXPIRY (R171). -/
  | repeatExpiry (k : CondKind) (o : CondObj)
  /-- START (R186). -/
  | start (p : StartP)
  /-- ADD PATH (R43 to R46). -/
  | addPath (p : AddP)
  /-- DELETE PATH (R54). -/
  | deletePath (h : Nat)
  /-- ENABLE PATH (R49, R50). -/
  | enablePath (h : Nat)
  /-- DISABLE PATH (R51 to R53). -/
  | disablePath (h : Nat)
  /-- MOVE PATH (R60, R147, R151). -/
  | movePath (h form carrier berth : Nat)
  /-- RECENTRE (R78). -/
  | recentre (h : Nat)
  /-- NUDGE (R80). -/
  | nudge (h dir count : Nat)
  /-- SQUELCH (R94). -/
  | squelch (h flag : Nat)
  /-- READ PATH (R187). -/
  | readPath (h : Nat)
  /-- READ CELLS (R187). -/
  | readCells (first count : Nat)
  /-- LABEL SCAN (R160). -/
  | labelScan (p : ScanP)
  /-- SENSE (R57). -/
  | sense
  /-- READ CONDITIONS (R175). -/
  | readConditions
  /-- SET REPORT (R176). -/
  | setReport (p : ReportP)
  /-- DEFAULTS (R178). -/
  | defaults
  /-- QUIET (R177). -/
  | quiet
  /-- RESUME (R177). -/
  | resume
  /-- READ STATION (R188). -/
  | readStation
  /-- DATA_WRITE (R181). -/
  | dataWrite (b : Byte)
  /-- DATA_READ (R181, R184). -/
  | dataRead
  /-- STATUS_WRITE (R180). -/
  | statusWrite (b : Byte)
  /-- PARAMETER_BYTE (R182): the host's parameter byte, written and taken. -/
  | parameterByte (b : Byte)
  /-- UNKNOWN_COMMAND (R182): a command byte with no known code, written and taken. -/
  | unknownCommand (b : Byte)
  /-- SCAN_ABORT (R184): a byte taken in EXECUTION, whatever its value. -/
  | scanAbort
  /-- CLIENT_LOS_CLEAR (R21). -/
  | clientLosClear (p : Nat)
  /-- CARRIER_LOS_CLEAR (R28). -/
  | carrierLosClear (c : Nat)
  /-- CLIENT_TRANSMIT_BYTE (R26): one byte time of a client transmit side. -/
  | clientTransmitByte (p : Nat)
  deriving DecidableEq, Repr

end Sys2Proof
end

