-- ==== Sys2Proof/Decode.lean ====
section
/-! DEFINITION. The words of the part, both ways: highway messages and cell headers with their CRC-8 (R190), control
codes (R190), and the host's command bytes (R191). No row of spec/opcode_table.json has bits, so no word spells a
command: `decodeTableWord` answers none. -/

namespace Sys2Proof

/-! ### CRC-8 (R190) -/

/-- One bit of the CRC-8 with generator x^8 + x^2 + x + 1 (R190). -/
def crcStep (c : BitVec 8) (bit : Bool) : BitVec 8 :=
  if c.msb != bit then (c <<< 1) ^^^ 0x07#8 else c <<< 1

/-- The CRC-8 of a word, over its bits in the order sent, preset to 0 (R190). -/
def crc8 {n : Nat} (x : BitVec n) : BitVec 8 :=
  (List.range n).foldl (fun c i => crcStep c (x.getMsbD i)) 0#8

/-! ### Highway messages (R109, R110, R190) -/

/-- The size code of k (R190); code 3 stands for every value that is no size. -/
def sizeCode (k : Nat) : BitVec 2 := if k = 1 then 0 else if k = 4 then 1 else if k = 16 then 2 else 3

/-- The size of a size code; code 3 fails the size test (R190). -/
def sizeOfCode (c : BitVec 2) : Option Nat :=
  if c = 0 then some 1 else if c = 1 then some 4 else if c = 2 then some 16 else none

def RefuseReason.code : RefuseReason → Nat
  | .noPath => 1 | .sizeMismatch => 2 | .notReady => 3 | .sinkBusy => 4 | .cellConflict => 5

def ReleaseReason.code : ReleaseReason → Nat
  | .deleted => 1 | .disabled => 2 | .moved => 3 | .collision => 4 | .withdrawn => 5 | .sinkGone => 6

def refuseReasonOf (n : Nat) : Option RefuseReason :=
  match n with
  | 1 => some .noPath | 2 => some .sizeMismatch | 3 => some .notReady | 4 => some .sinkBusy | 5 => some .cellConflict
  | _ => none

def releaseReasonOf (n : Nat) : Option ReleaseReason :=
  match n with
  | 1 => some .deleted | 2 => some .disabled | 3 => some .moved | 4 => some .collision | 5 => some .withdrawn
  | 6 => some .sinkGone | _ => none

/-- The fields of a message besides its kind and reason. -/
def Msg.body : Msg → MsgBody
  | .claim b => b | .accept b => b | .refuse b _ => b | .release b _ => b

/-- The kind code (R104, R190): RELEASE 1, REFUSE 2, ACCEPT 3, CLAIM 4. -/
def Msg.kindCode : Msg → Nat
  | .release _ _ => 1 | .refuse _ _ => 2 | .accept _ => 3 | .claim _ => 4

/-- The reason code; CLAIM and ACCEPT carry reason 0 (R190). -/
def Msg.reasonCode : Msg → Nat
  | .claim _ => 0 | .accept _ => 0 | .refuse _ r => r.code | .release _ r => r.code

/-- The tests of R110 on the fields of a message whose kind and reason are known: widths, sender and addressee that
differ, a tag that is not 0, a size, an aligned first cell, and no move flag on a RELEASE. -/
def Msg.passes (m : Msg) : Bool :=
  let b := m.body
  b.sender < 16 && b.addressee < 16 && b.sender != b.addressee && 0 < b.tag && b.tag < 65536 && b.first < 1024 &&
  (b.size == 1 || b.size == 4 || b.size == 16) && b.first % b.size == 0 &&
  !(b.move && m.kindCode == 1)

/-- The 43 bits under the check, most significant field first (R190). -/
def Msg.bits (m : Msg) : BitVec 43 :=
  let b := m.body
  BitVec.ofNat 3 m.kindCode ++ BitVec.ofNat 4 b.sender ++ BitVec.ofNat 4 b.addressee ++ BitVec.ofNat 16 b.tag ++
  BitVec.ofNat 10 b.first ++ sizeCode b.size ++ BitVec.ofBool b.move ++ BitVec.ofNat 3 m.reasonCode

/-- The 51 bits of a message as sent (R190). -/
def encodeMsg (m : Msg) : BitVec 51 := m.bits ++ crc8 m.bits

/-- The message of 51 bits read from a burst, where it passes R110; none for a message that has failed. -/
def decodeMsg (w : BitVec 51) : Option Msg :=
  let bits : BitVec 43 := w.extractLsb' 8 43
  if w.extractLsb' 0 8 = crc8 bits then
    match sizeOfCode (w.extractLsb' 12 2) with
    | none => none
    | some k =>
      let b : MsgBody :=
        { sender := (w.extractLsb' 44 4).toNat, addressee := (w.extractLsb' 40 4).toNat,
          tag := (w.extractLsb' 24 16).toNat, first := (w.extractLsb' 14 10).toNat, size := k,
          move := w.getLsbD 11 }
      let reason := (w.extractLsb' 8 3).toNat
      let m : Option Msg :=
        match (w.extractLsb' 48 3).toNat with
        | 1 => (releaseReasonOf reason).map (Msg.release b)
        | 2 => (refuseReasonOf reason).map (Msg.refuse b)
        | 3 => if reason = 0 then some (.accept b) else none
        | 4 => if reason = 0 then some (.claim b) else none
        | _ => none
      m.bind (fun m => if m.passes then some m else none)
  else none

/-! ### Cell headers (R113, R190) -/

/-- The fields of a valid cell header (R190). -/
structure Header where
  station : Nat
  tag     : Nat
  index   : Nat
  code    : Code
  label   : Char7
  deriving DecidableEq, Repr

def Code.headerCode : Code → Nat
  | .normal => 0 | .extra => 1 | .short => 2 | .maintenance => 3 | .idle => 4

def codeOfHeader (n : Nat) : Option Code :=
  match n with
  | 0 => some .normal | 1 => some .extra | 2 => some .short | 3 => some .maintenance | 4 => some .idle | _ => none

def Header.bits (h : Header) : BitVec 34 :=
  BitVec.ofNat 4 h.station ++ BitVec.ofNat 16 h.tag ++ BitVec.ofNat 4 h.index ++ BitVec.ofNat 3 h.code.headerCode ++
  h.label

/-- The 42 bits of a cell header as sent (R190). -/
def encodeHeader (h : Header) : BitVec 42 := h.bits ++ crc8 h.bits

/-- The header read from a cell: valid when its check passes and its control code holds 0..4 (R190). -/
def decodeHeader (w : BitVec 42) : Option Header :=
  let bits : BitVec 34 := w.extractLsb' 8 34
  if w.extractLsb' 0 8 = crc8 bits then
    (codeOfHeader (w.extractLsb' 15 3).toNat).map (fun c =>
      { station := (w.extractLsb' 38 4).toNat, tag := (w.extractLsb' 22 16).toNat,
        index := (w.extractLsb' 18 4).toNat, code := c, label := w.extractLsb' 8 7 })
  else none

/-! ### Control codes on the carriers (R29, R190) -/

/-- The byte of each of the three copies of a control code (R190). -/
def Code.byte : Code → Byte
  | .normal => 0x3C | .extra => 0xC3 | .short => 0x96 | .maintenance => 0x69 | .idle => 0x00

def codeOfByte (b : Byte) : Option Code :=
  if b = 0x3C then some .normal else if b = 0xC3 then some .extra else if b = 0x96 then some .short
  else if b = 0x69 then some .maintenance else if b = 0x00 then some .idle else none

/-- The value held by at least two of three copies, if any. -/
def majority (a b c : Byte) : Option Byte :=
  if a = b then some a else if a = c then some a else if b = c then some b else none

/-- The decoded code of a berth, and whether the control-error count is raised (R29). -/
def decodeCopies (a b c : Byte) : Code × Bool :=
  match (majority a b c).bind codeOfByte with
  | some k => (k, false)
  | none => (.normal, true)

/-- The carrier alignment pattern (R190). -/
def carrierPattern : List Byte := [0x1E, 0xB4, 0x7C, 0x53]

/-- The first byte of the client alignment word (R190). -/
def wordFirst : Byte := 0x4B
/-- The second byte of the normal form of the client alignment word. -/
def wordNormal : Byte := 0xD2
/-- The second byte of its maintenance form. -/
def wordMaint : Byte := 0x2D

/-- The form of a pair of bytes: none when it is no alignment word, else whether it is the maintenance form. -/
def wordForm (a b : Byte) : Option Bool :=
  if a = wordFirst then (if b = wordNormal then some false else if b = wordMaint then some true else none) else none

/-! ### Command bytes (R182, R191) -/

/-- The fixed number of parameter bytes of a command code; none for a code that is not known (R191). -/
def paramCount (code : Nat) : Option Nat :=
  match code with
  | 0x80 => some 12 | 0x81 => some 24 | 0x82 => some 2 | 0x83 => some 2 | 0x84 => some 2 | 0x85 => some 6
  | 0x86 => some 2 | 0x87 => some 4 | 0x88 => some 3 | 0x89 => some 2 | 0x8A => some 3 | 0x8B => some 17
  | 0x8C => some 0 | 0x8D => some 0 | 0x8E => some 8 | 0x8F => some 0 | 0x90 => some 0 | 0x91 => some 0
  | 0x92 => some 0 | _ => none

/-- The value of 7-bit groups, most significant first (section 11.2). -/
def groups7 (l : List Byte) : Nat := l.foldl (fun a b => a * 128 + b.toNat % 128) 0

/-- The parameter byte with this index; the parser is only given lists of the command's full length. -/
def parByte (l : List Byte) (i : Nat) : Nat := (l.getD i 0).toNat % 128

/-- The value of `n` parameter bytes from index `i`. -/
def parVal (l : List Byte) (i n : Nat) : Nat := groups7 ((l.drop i).take n)

def parChars (l : List Byte) (i : Nat) : Label := ((l.drop i).take 8).map (fun b => b.truncate 7)

def parEndpoint (l : List Byte) (i : Nat) : EpParam :=
  { type := parByte l i, number := parByte l (i + 1), berth := parVal l (i + 2) 2 }

/-- The command of a code and its full list of parameter bytes (R191). -/
def parseCommand (code : Nat) (l : List Byte) : Option HostCmd :=
  match code with
  | 0x80 => some (.start
      { station := parByte l 0,
        sizing := BitVec.ofNat 8 (parByte l 1 + 128 * (parByte l 2 % 2)),
        h := parByte l 3, n := parByte l 4, i := parByte l 5, m := parVal l 6 2, timeout := parByte l 8,
        expiry := parByte l 9 % 2, guard := parByte l 10, holdoff := parByte l 11 })
  | 0x81 => some (.addPath
      { tag := parVal l 0 3, role := parByte l 3, size := parByte l 4, source := parEndpoint l 5,
        sink := parEndpoint l 9, remote := parByte l 13, hasLabel := parByte l 14 % 2, label := parChars l 15,
        squelch := (l.getD 23 0).truncate 7 })
  | 0x82 => some (.deletePath (parVal l 0 2))
  | 0x83 => some (.enablePath (parVal l 0 2))
  | 0x84 => some (.disablePath (parVal l 0 2))
  | 0x85 => some (.movePath (parVal l 0 2) (parByte l 2) (parByte l 3) (parVal l 4 2))
  | 0x86 => some (.recentre (parVal l 0 2))
  | 0x87 => some (.nudge (parVal l 0 2) (parByte l 2) (parByte l 3))
  | 0x88 => some (.squelch (parVal l 0 2) (parByte l 2))
  | 0x89 => some (.readPath (parVal l 0 2))
  | 0x8A => some (.readCells (parVal l 0 2) (parByte l 2))
  | 0x8B => some (.labelScan
      { carrier := parByte l 0, size := parByte l 1, first := parVal l 2 2, last := parVal l 4 2, step := parByte l 6,
        mode := parByte l 7, pattern := parChars l 8, skip := parByte l 16 % 2 })
  | 0x8C => some .sense
  | 0x8D => some .readConditions
  | 0x8E => some (.setReport
      { kind := parByte l 0, type := parByte l 1, raiseM := parByte l 2, raiseE := parByte l 3, clearM := parByte l 4,
        clearE := parByte l 5, repeatM := parByte l 6, repeatE := parByte l 7 })
  | 0x8F => some .defaults
  | 0x90 => some .quiet
  | 0x91 => some .resume
  | 0x92 => some .readStation
  | _ => none

/-! The encoder: the bytes that spell a command, code first (R191). -/

def byte7 (n : Nat) : Byte := BitVec.ofNat 8 (n % 128)

def bytes2 (n : Nat) : List Byte := [byte7 (n / 128), byte7 n]

def bytes3 (n : Nat) : List Byte := [byte7 (n / 16384), byte7 (n / 128), byte7 n]

def charBytes (l : Label) : List Byte := l.map (fun c => c.zeroExtend 8)

def endpointBytes (e : EpParam) : List Byte := [byte7 e.type, byte7 e.number] ++ bytes2 e.berth

/-- The code byte of a command (R191). -/
def HostCmd.code : HostCmd → Nat
  | .start _ => 0x80 | .addPath _ => 0x81 | .deletePath _ => 0x82 | .enablePath _ => 0x83 | .disablePath _ => 0x84
  | .movePath .. => 0x85 | .recentre _ => 0x86 | .nudge .. => 0x87 | .squelch .. => 0x88 | .readPath _ => 0x89
  | .readCells .. => 0x8A | .labelScan _ => 0x8B | .sense => 0x8C | .readConditions => 0x8D | .setReport _ => 0x8E
  | .defaults => 0x8F | .quiet => 0x90 | .resume => 0x91 | .readStation => 0x92

/-- The parameter bytes of a command (R191). -/
def HostCmd.params : HostCmd → List Byte
  | .start p => [byte7 p.station, byte7 p.sizing.toNat, byte7 (p.sizing.toNat / 128), byte7 p.h, byte7 p.n, byte7 p.i] ++
      bytes2 p.m ++ [byte7 p.timeout, byte7 p.expiry, byte7 p.guard, byte7 p.holdoff]
  | .addPath p => bytes3 p.tag ++ [byte7 p.role, byte7 p.size] ++ endpointBytes p.source ++ endpointBytes p.sink ++
      [byte7 p.remote, byte7 p.hasLabel] ++ charBytes p.label ++ [p.squelch.zeroExtend 8]
  | .deletePath h => bytes2 h
  | .enablePath h => bytes2 h
  | .disablePath h => bytes2 h
  | .movePath h form c b => bytes2 h ++ [byte7 form, byte7 c] ++ bytes2 b
  | .recentre h => bytes2 h
  | .nudge h dir count => bytes2 h ++ [byte7 dir, byte7 count]
  | .squelch h flag => bytes2 h ++ [byte7 flag]
  | .readPath h => bytes2 h
  | .readCells first count => bytes2 first ++ [byte7 count]
  | .labelScan p => [byte7 p.carrier, byte7 p.size] ++ bytes2 p.first ++ bytes2 p.last ++ [byte7 p.step, byte7 p.mode] ++
      charBytes p.pattern ++ [byte7 p.skip]
  | .setReport p => [byte7 p.kind, byte7 p.type, byte7 p.raiseM, byte7 p.raiseE, byte7 p.clearM, byte7 p.clearE,
      byte7 p.repeatM, byte7 p.repeatE]
  | .sense => [] | .readConditions => [] | .defaults => [] | .quiet => [] | .resume => [] | .readStation => []

/-- The bytes of a command, as the host writes them (R182). -/
def encodeCommand (c : HostCmd) : List Byte := BitVec.ofNat 8 c.code :: c.params

/-- Every field of the command fits the bytes that carry it, and labels have eight characters (R191). -/
def HostCmd.fits : HostCmd → Bool
  | .start p => p.station < 128 && p.h < 128 && p.n < 128 && p.i < 128 && p.m < 16384 && p.timeout < 128 &&
      p.expiry < 2 && p.guard < 128 && p.holdoff < 128
  | .addPath p => p.tag < 2097152 && p.role < 128 && p.size < 128 && p.source.type < 128 && p.source.number < 128 &&
      p.source.berth < 16384 && p.sink.type < 128 && p.sink.number < 128 && p.sink.berth < 16384 && p.remote < 128 &&
      p.hasLabel < 2 && p.label.length == 8
  | .deletePath h => h < 16384
  | .enablePath h => h < 16384
  | .disablePath h => h < 16384
  | .movePath h form c b => h < 16384 && form < 128 && c < 128 && b < 16384
  | .recentre h => h < 16384
  | .nudge h dir count => h < 16384 && dir < 128 && count < 128
  | .squelch h flag => h < 16384 && flag < 128
  | .readPath h => h < 16384
  | .readCells first count => first < 16384 && count < 128
  | .labelScan p => p.carrier < 128 && p.size < 128 && p.first < 16384 && p.last < 16384 && p.step < 128 &&
      p.mode < 128 && p.pattern.length == 8 && p.skip < 2
  | .setReport p => p.kind < 128 && p.type < 128 && p.raiseM < 128 && p.raiseE < 128 && p.clearM < 128 &&
      p.clearE < 128 && p.repeatM < 128 && p.repeatE < 128
  | .sense => true | .readConditions => true | .defaults => true | .quiet => true | .resume => true
  | .readStation => true

/-! ### Words of the opcode table -/

/-- The command that a word spells by the table's bits: no row of the table has bits, so none. -/
def decodeTableWord (_nbits _w : Nat) : Option Instr := none

end Sys2Proof
end

