-- ==== Sys2Proof/Machine/State.lean ====
section
/-! DEFINITION. The state of the part: what each of the nine blocks holds (00 section 2.1), the queue of waiting
commands, the reasons a command can stop, and the machine after device reset. -/

namespace Sys2Proof.Machine

/-! ### Frame timer (R2) -/

inductive Timer where
  | tracking | holdover
  deriving DecidableEq, Repr

/-- The state of FTM (R2), with the instants and marks that R1, R3, R4 and R8 imply. -/
structure Ftm where
  timer          : Timer
  frame          : Nat
  mfCount        : Nat
  period         : Nat
  miss           : Nat
  good           : Nat
  anchor         : Option Nat
  mismatch       : Nat
  realignPending : Bool
  entries        : Nat
  realigns       : Nat
  /-- The instant of the last frame start (R3, R5). -/
  lastStart      : Nat
  /-- The last in-window pulse, while no miss has followed it (R1). -/
  lastPulse      : Option Nat
  /-- A realignment's timing-restored indication is owed at the next boundary (R8). -/
  restoreDue     : Bool
  /-- Some part of this frame was in HOLDOVER (R4). -/
  refLostSeen    : Bool
  deriving DecidableEq, Repr

/-! ### Client ports (R16 to R26) -/

inductive Align where
  | hunt | confirm | aligned
  deriving DecidableEq, Repr

/-- The receive side of a client port (R18, R21, R23, R24). -/
structure RxSide where
  align      : Align
  confirm    : Nat
  miss       : Nat
  /-- The place in the client frame of the next byte, from the expected word position; absent in HUNT (R18). -/
  pos        : Option Nat
  /-- The first byte of the pair under comparison. -/
  held       : Option Byte
  /-- The client frame in progress has the maintenance form (R22). -/
  maint      : Bool
  los        : Bool
  /-- Consecutive byte times without a data transition, up to 32 (R21). -/
  quiet      : Nat
  /-- A capture is owed at the next normal-form word (R23). -/
  captureDue : Bool
  losSeen    : Bool
  loaSeen    : Bool
  /-- A client frame of the maintenance form was being received at some time of this frame (R22). -/
  maintSeen  : Bool
  /-- The port's raw defects are raised in this frame (R24, R46). -/
  raising    : Bool
  deriving DecidableEq, Repr

/-- A receive side after device reset (R18, R21). -/
def RxSide.init : RxSide :=
  { align := .hunt, confirm := 0, miss := 0, pos := none, held := none, maint := false, los := false, quiet := 0,
    captureDue := false, losSeen := false, loaSeen := true, maintSeen := false, raising := false }

/-- The transmit side of a client port (R25, R26). -/
structure TxSide where
  /-- DATA, or FILL. -/
  data    : Bool
  count   : Nat
  /-- Bytes of the alignment word of the client frame in progress that have been sent. -/
  word    : Nat
  /-- Data bytes handed and not yet sent. -/
  handed  : List Byte
  /-- Bytes of the fill frame in progress that have been sent. -/
  fillPos : Nat
  /-- The CL_TX pin: the last byte sent. -/
  out     : Option Byte
  deriving DecidableEq, Repr

/-- A transmit side after device reset (R25): the first fill frame begins with the first frame. R25 gives the pin no
value before the first byte is sent; the model holds none (log 28: DESIGN CHOICE). -/
def TxSide.init : TxSide :=
  { data := false, count := 0, word := 0, handed := [], fillPos := 0, out := none }

structure Clp where
  /-- Bit g is set when port group g is MEDIUM (R16). -/
  sizing : BitVec 8
  rx     : Sparse RxSide
  tx     : Sparse TxSide
  deriving DecidableEq, Repr

/-! ### Carrier receivers and the scan engine (R27 to R34, R159 to R168) -/

/-- An incoming carrier receiver (R27 to R29). -/
structure Carrier where
  align     : Align
  confirm   : Nat
  miss      : Nat
  pos       : Option Nat
  /-- The bytes under comparison with the alignment pattern, oldest first. -/
  held      : List Byte
  los       : Bool
  quiet     : Nat
  losSeen   : Bool
  loaSeen   : Bool
  ctlErr    : Nat
  /-- The decoded code each berth holds (R29). -/
  codes     : Sparse Code
  /-- Bit b: berth b has been decoded since the carrier became ALIGNED (R31). -/
  decoded   : BitVec 432
  /-- Bit b: berth b has held a delivering code, decoded since the carrier became ALIGNED, throughout this frame (R31). -/
  delivered : BitVec 432
  /-- The index of the previous received frame (R32, R163). -/
  prevIndex : Option Nat
  deriving DecidableEq, Repr

def Carrier.init : Carrier :=
  { align := .hunt, confirm := 0, miss := 0, pos := none, held := [], los := false, quiet := 0, losSeen := false,
    loaSeen := true, ctlErr := 0, codes := [], decoded := 0, delivered := 0, prevIndex := none }

/-- The relation of a label to the pattern of a scan (R165). -/
inductive Relation where
  | equal | less | greater
  deriving DecidableEq, Repr

/-- A reading slot of the scan engine (R162). -/
structure Reading where
  start  : Nat
  second : Bool
  slots  : List (Option Char7)
  first  : Option Label
  idle   : Bool
  maint  : Bool
  deriving DecidableEq, Repr

/-- How a candidate was decided (R164). -/
inductive Finding where
  | skipped
  | unreadable
  | readable (l : Label)
  deriving DecidableEq, Repr

/-- The scan engine while ACTIVE (R159). -/
structure Scan where
  par        : ScanP
  next       : Option Nat
  slots      : List (Option Reading)
  decided    : List (Nat × Finding)
  examined   : Nat
  skipped    : Nat
  unreadable : Nat
  last       : Option (Nat × Relation)
  stall      : Nat
  deriving DecidableEq, Repr

structure Crx where
  carriers : Sparse Carrier
  /-- The scan engine: absent when IDLE (R159). -/
  scan     : Option Scan
  deriving DecidableEq, Repr

/-- The capture record of a feed-list entry (R32). -/
structure Capture where
  prev      : Option Nat
  /-- The cycle in progress, absent while none has begun. -/
  cycle     : Option (List (Option Char7))
  last      : Option Label
  confirmed : Option Label
  deriving DecidableEq, Repr

def Capture.init : Capture := { prev := none, cycle := none, last := none, confirmed := none }

/-- An entry of a feed list (section 2.7): the group, the handles it feeds, and its capture record. -/
structure FeedEntry where
  first   : Nat
  k       : Nat
  handles : List Nat
  cap     : Capture
  deriving DecidableEq, Repr

/-! ### Fill control (R61 to R83) -/

/-- A justification decision (R69, R72). -/
inductive Dec where
  | normal | extra | short
  deriving DecidableEq, Repr

/-- The direction of a forced step: an EXTRA is DOWN, a SHORT is UP (R62). -/
inductive Dir where
  | down | up
  deriving DecidableEq, Repr

/-- The forced-operation sub-record (R62); remaining is `limit - steps`. -/
structure Forced where
  /-- NUDGE, or RECENTRE. -/
  nudge : Bool
  steps : Nat
  limit : Nat
  dir   : Option Dir
  deriving DecidableEq, Repr

/-- The elastic store, its two stages and the fill context of a path with a local source (R61, R62). Occupancy O is
the length of the store; the oldest byte is its head. -/
structure Fil where
  store       : List Byte
  inStage     : List Byte
  outStage    : List Byte
  /-- The decision that set the number of bytes of the path frame in progress. -/
  outDec      : Dec
  /-- Source bytes still to be dropped after a preset (R68). -/
  dropNext    : Nat
  slipPending : Bool
  defectSeen  : Bool
  spacing     : Nat
  lastDec     : Dec
  lastForced  : Bool
  wCount      : Nat
  wSum        : Int
  wValid      : Bool
  offset      : Option Int
  clamped     : Bool
  lastInvalid : Bool
  slips       : Nat
  forced      : Option Forced
  lastSteps   : Nat
  deriving DecidableEq, Repr

/-- The fill-control constants (R63). -/
structure FilConsts where
  h : Nat
  n : Nat
  i : Nat
  m : Nat
  deriving DecidableEq, Repr

/-- The defaults, from device reset until START (R63). -/
def FilConsts.initial : FilConsts := { h := 2, n := 4, i := 2, m := 64 }

/-! ### Path records (R37) -/

/-- An endpoint of a path (R37). -/
inductive Endpoint where
  | port (p : Nat)
  | carrier (c b : Nat)
  deriving DecidableEq, Repr

/-- The states of a record, over all roles (R39 to R41). -/
inductive PState where
  | defined | waiting | claiming | carrying | collided | moving | blocked | stranded | listening | accepted | receiving
  deriving DecidableEq, Repr

inductive EndCause where
  | sourceLost | slip | disabled
  deriving DecidableEq, Repr

inductive MoveCause where
  | endpointBusy | noCells | refused | expired | collision | disabled | mute | lost
  deriving DecidableEq, Repr

/-- A completion code with its reason or cause (section 3.5). -/
inductive Completion where
  | claimAccepted
  | claimRefused (r : RefuseReason)
  | claimExpired
  | stranded
  | sinkStarted
  | sinkLost
  | recentred
  | recentreIncomplete
  | recentreEnded (c : EndCause)
  | nudged
  | nudgeLimit
  | moveDone
  | moveFailed (c : MoveCause)
  deriving DecidableEq, Repr

/-- A content: one frame of a path (section 5.2). -/
structure Content where
  code  : Code
  bytes : List Byte
  deriving DecidableEq, Repr

/-- A place that owes a carry-queue entry (R86). -/
inductive Debtor where
  | group (c b : Nat)
  | client (p : Nat)
  deriving DecidableEq, Repr

structure CarryEntry where
  content : Content
  debtors : List Debtor
  deriving DecidableEq, Repr

inductive BerthPhase where
  | pending | bridge | retiring
  deriving DecidableEq, Repr

/-- The move context of form BERTHS (R146), and what is kept of it for an undo (R150). -/
structure BerthMove where
  newC  : Nat
  newB  : Nat
  oldC  : Nat
  oldB  : Nat
  phase : BerthPhase
  guard : Nat
  deriving DecidableEq, Repr

inductive CellPhase where
  | seeking | claimed | accepted | bridge | retiring
  deriving DecidableEq, Repr

/-- The move context of form CELLS at the source (R146). -/
structure CellMove where
  new   : Option Nat
  old   : Nat
  phase : CellPhase
  guard : Nat
  deriving DecidableEq, Repr

inductive SinkMoveStatus where
  | queued | sent | bridging
  deriving DecidableEq, Repr

/-- The cell move of a SINK record (R154). -/
structure SinkMove where
  new    : Nat
  status : SinkMoveStatus
  guard  : Nat
  deriving DecidableEq, Repr

/-- Why a SOURCE record last failed to get cells (R121). -/
inductive RefusalField where
  | noCells
  | reason (r : RefuseReason)
  deriving DecidableEq, Repr

/-- The squelch context (R91), with what R95 and R97 gather. -/
structure Squelch where
  forced    : Bool
  on        : Bool
  quiet     : Nat
  /-- A selected source was present in some frame of this multiframe (R95). -/
  srcSeenMf : Bool
  /-- The squelch state was on at some time of this frame (R97). -/
  onSeen    : Bool
  deriving DecidableEq, Repr

/-- The highway fields of a SOURCE record (R121). -/
structure SrcHw where
  cells       : Option Nat
  attempt     : Nat
  backoff     : Option Nat
  refusal     : Option RefusalField
  acceptHeard : Bool
  clean       : Nat
  /-- CARRYING or MOVING, without a collision, since the multiframe began (R137). -/
  cleanRun    : Bool
  /-- The latest content handed while the path was live (R70, R111). -/
  content     : Option Content
  move        : Option CellMove
  deriving DecidableEq, Repr

inductive AcceptStatus where
  | queued | sent
  deriving DecidableEq, Repr

/-- A good cell as a sink received it (R138). -/
structure RxCell where
  code    : Code
  label   : Char7
  payload : List Byte
  deriving DecidableEq, Repr

/-- The highway fields of a SINK record (R121, R138 to R142, R154). -/
structure SnkHw where
  cells     : Option Nat
  status    : Option AcceptStatus
  /-- The missing count of each cell, by index (R138); an index not listed has 0. -/
  missing   : Sparse Nat
  check     : Nat
  loss      : Nat
  watch     : Option Nat
  /-- The highway cells of this frame that carried the path's cell for their place (R142). -/
  watchSeen : List Nat
  move      : Option SinkMove
  /-- The run the sink copies in this frame (R131, R139). -/
  copy      : Option Nat
  /-- The good cells received in this frame, by index (R138). -/
  rxCells   : Sparse RxCell
  /-- A good cell showed MAINTENANCE or IDLE in this frame (R140). -/
  maintSeen : Bool
  /-- The raw states of the last whole frame (R140). -/
  rawDefect : Bool
  rawLoss   : Bool
  rawCheck  : Bool
  deriving DecidableEq, Repr

/-- Where a path's decision point lies in the frame (R11). -/
inductive Place where
  | frameStart
  | berth (b : Nat)
  | cell (x : Nat)
  deriving DecidableEq, Repr

/-- A path record (R37). -/
structure PathRec where
  tag               : Nat
  role              : Role
  k                 : Nat
  source            : Option Endpoint
  sink              : Option Endpoint
  remote            : Option Nat
  label             : Option Label
  /-- The squelch set, by the bits of R191; absent for a SOURCE. -/
  sqSet             : Option (BitVec 5)
  state             : PState
  enablePending     : Bool
  completionPending : Bool
  lastCompletion    : Option Completion
  superseded        : Nat
  sq                : Squelch
  carry             : List CarryEntry
  labelBuf          : Label
  bmove             : Option BerthMove
  undo              : Option BerthMove
  fil               : Option Fil
  hw                : SrcHw
  sk                : SnkHw
  /-- The source was not delivering at some time of this frame (R35). -/
  srcBadSeen        : Bool
  /-- The confirmed label differed from the expected one at some time of this frame (R34). -/
  lmSeen            : Bool
  /-- FILL_SLIP was raised in this frame (R74). -/
  slipSeen          : Bool
  place             : Place
  /-- The path's liveness as the blocks took it at the frame start (R38). -/
  liveF             : Bool
  /-- The squelch state as the client transmit side took it at the frame start (R89, R93, R94). -/
  squelchF          : Bool
  /-- A frame has started since ADD (R46, R61). -/
  begun             : Bool
  /-- The decision point of this frame has been taken (R68, R71). -/
  decided           : Bool
  /-- The path has had a decision point since START was accepted, so START's constants of FIL apply to it (R63). -/
  filNew            : Bool
  deriving DecidableEq, Repr

structure Ptb where
  paths       : Sparse PathRec
  /-- The feed list of each incoming carrier. -/
  feeds       : Sparse (List FeedEntry)
  rxBind      : Sparse Nat
  txBind      : Sparse Nat
  completions : List (Nat × Completion)
  deriving DecidableEq, Repr

/-! ### Carrier builders (R84 to R98) -/

inductive BerthRole where
  | primary | bridge | retiring
  deriving DecidableEq, Repr

structure Owner where
  handle : Nat
  role   : BerthRole
  deriving DecidableEq, Repr

/-- An owned group as CBL took it at the frame start (R84, R85). -/
structure GroupPlan where
  carrier : Nat
  first   : Nat
  k       : Nat
  /-- The owner; absent once its record has been deleted. -/
  handle  : Option Nat
  role    : BerthRole
  live    : Bool
  /-- The character of this frame (R88). -/
  label   : Char7
  deriving DecidableEq, Repr

/-- What the last group start put on an outgoing carrier. -/
structure GroupOut where
  first : Nat
  bytes : List Byte
  deriving DecidableEq, Repr

structure Cbl where
  /-- The berth owner maps of the four carriers; berth b of carrier c has number 432 c + b. -/
  owners  : Sparse Owner
  holdoff : Nat
  guard   : Nat
  plan    : List GroupPlan
  out     : Sparse GroupOut
  deriving DecidableEq, Repr

/-! ### Highway interface (R99 to R158) -/

inductive Station where
  | unstarted | warming | joined | mute
  deriving DecidableEq, Repr

/-- A cell-map entry (R114); the two own forms carry only the holder and the tag. -/
inductive CellEntry where
  | free
  | reserved (holder tag age : Nat) (accepted release : Bool)
  | held (holder tag silent : Nat) (release : Bool)
  | ownReserved (holder tag : Nat)
  | ownHeld (holder tag : Nat)
  deriving DecidableEq, Repr

/-- A waiting message with the number of frame starts since its creation (R107, R108). -/
structure QueuedMsg where
  msg : Msg
  age : Nat
  deriving DecidableEq, Repr

/-- What a BOUND or RUNNING monitor records (R122). -/
structure Bound where
  handle    : Nat
  tag       : Nat
  addressee : Nat
  first     : Nat
  k         : Nat
  move      : Bool
  deriving DecidableEq, Repr

inductive Monitor where
  | idle
  | bound (b : Bound)
  | running (b : Bound) (remaining : Nat)
  deriving DecidableEq, Repr

/-- A run that HWY drives in this frame (R111). -/
structure Drive where
  handle  : Nat
  tag     : Nat
  k       : Nat
  first   : Nat
  /-- The old run of a move after the switch: MAINTENANCE in every cell (R153). -/
  retired : Bool
  content : Option Content
  label   : Char7
  deriving DecidableEq, Repr

/-- A cell as this station last drove it. -/
structure CellOut where
  cell    : Nat
  header  : BitVec 42
  payload : List Byte
  deriving DecidableEq, Repr

structure Hwy where
  station   : Station
  number    : Option Nat
  warm      : Nat
  doubt     : Bool
  yielding  : Bool
  sendQ     : List QueuedMsg
  cells     : Sparse CellEntry
  mons      : List Monitor
  timeout   : Nat
  /-- The expiry action: BLOCK, or RETRY. -/
  block     : Bool
  msgCheck  : Nat
  msgRaised : Bool
  /-- Bit x: cell x has passed in this frame (R113). -/
  passed    : BitVec 1024
  drives    : List Drive
  cellOut   : Option CellOut
  burstLine : BitVec 51
  deriving DecidableEq, Repr

/-! ### Condition monitor (R169 to R179) -/

structure Inst where
  kind     : CondKind
  obj      : CondObj
  sample   : Bool
  declared : Bool
  soak     : Nat
  rep      : Nat
  deriving DecidableEq, Repr

def Inst.init (k : CondKind) (o : CondObj) : Inst :=
  { kind := k, obj := o, sample := false, declared := false, soak := 0, rep := 0 }

inductive ReportType where
  | off | raiseOnly | raiseClear | repeating
  deriving DecidableEq, Repr

structure Setting where
  type    : ReportType
  raiseM  : Nat
  raiseE  : Nat
  clearM  : Nat
  clearE  : Nat
  repeatM : Nat
  repeatE : Nat
  deriving DecidableEq, Repr

inductive Edge where
  | rise | clear | standing | event
  deriving DecidableEq, Repr

structure CondRec where
  kind     : CondKind
  obj      : CondObj
  edge     : Edge
  mfCount  : Nat
  overflow : Bool
  dropped  : Nat
  deriving DecidableEq, Repr

structure Cnd where
  /-- The instances, by the order number of R172 (`condKey`). -/
  insts    : Sparse Inst
  /-- The settings by kind code; a kind not listed has its default (R176). -/
  settings : Sparse Setting
  queue    : List CondRec
  quiet    : Bool
  deriving DecidableEq, Repr

/-! ### Command port (R180 to R185) -/

inductive Phase where
  | command | execution | result
  deriving DecidableEq, Repr

structure Cmd where
  phase      : Phase
  inProgress : Option (Nat × List Byte)
  inFifo     : List Byte
  /-- The bytes of the staged result not yet moved to the output FIFO; absent when no result is staged. -/
  staged     : Option (List Byte)
  outFifo    : List Byte
  waiting    : Bool
  started    : Bool
  /-- CP_D as the host last read it at the data address (R181). -/
  cpData     : Byte
  deriving DecidableEq, Repr

/-! ### The machine -/

/-- The whole part, and the commands that are waiting. -/
structure State where
  ftm     : Ftm
  clp     : Clp
  crx     : Crx
  fil     : FilConsts
  cbl     : Cbl
  hwy     : Hwy
  ptb     : Ptb
  cnd     : Cnd
  cmd     : Cmd
  pending : List Instr
  deriving DecidableEq, Repr

/-- Why a command stops. The part itself stops for nothing: each of these is an operand that names something the
part does not have, raised by the event rows that carry such an operand (log 6: DESIGN CHOICE). Safe: the model stops where no
hardware event exists. -/
inductive Fault where
  /-- A client port above 31. Raised by the client rows. Safe. -/
  | noSuchPort (p : Nat)
  /-- A carrier above 3. Raised by the carrier rows and GROUP_START. Safe. -/
  | noSuchCarrier (c : Nat)
  /-- A berth above 431. Raised by GROUP_START. Safe. -/
  | noSuchBerth (b : Nat)
  /-- A highway cell above 1023. Raised by the cell rows. Safe. -/
  | noSuchCell (x : Nat)
  deriving DecidableEq, Repr

/-- Why a command is refused. -/
inductive Refusal where
  /-- The command has no meaning in the model yet. Raised by exec's own arms only. Safe. -/
  | notModelled (mnemonic : String)
  deriving DecidableEq, Repr

/-- After device reset (R2, R16, R18, R25, R27, R36, R63, R84, R91, R99, R122, R146, R159, R169, R174, R176, R180). -/
def State.reset : State where
  ftm := { timer := .holdover, frame := 0, mfCount := 0, period := Config.framePs, miss := 0, good := 0, anchor := none,
           mismatch := 0, realignPending := false, entries := 0, realigns := 0, lastStart := 0, lastPulse := none,
           restoreDue := false, refLostSeen := true }
  clp := { sizing := 0, rx := [], tx := [] }
  crx := { carriers := [], scan := none }
  fil := FilConsts.initial
  cbl := { owners := [], holdoff := 2, guard := 2, plan := [], out := [] }
  hwy := { station := .unstarted, number := none, warm := 0, doubt := true, yielding := false, sendQ := [], cells := [],
           mons := [.idle, .idle], timeout := 4, block := false, msgCheck := 0, msgRaised := false, passed := 0,
           drives := [], cellOut := none, burstLine := BitVec.allOnes 51 }
  ptb := { paths := [], feeds := [], rxBind := [], txBind := [], completions := [] }
  cnd := { insts := [(0, Inst.init .refLost .station),
                     (16, Inst.init .carrierLos (.carrier 0)), (17, Inst.init .carrierLoa (.carrier 0)),
                     (32, Inst.init .carrierLos (.carrier 1)), (33, Inst.init .carrierLoa (.carrier 1)),
                     (48, Inst.init .carrierLos (.carrier 2)), (49, Inst.init .carrierLoa (.carrier 2)),
                     (64, Inst.init .carrierLos (.carrier 3)), (65, Inst.init .carrierLoa (.carrier 3))],
           settings := [], queue := [], quiet := false }
  cmd := { phase := .command, inProgress := none, inFifo := [], staged := none, outFifo := [], waiting := false,
           started := false, cpData := 0xFF }
  pending := []

end Sys2Proof.Machine
end

