-- ==== Sys2Proof/Machine/Ops.lean ====
section
/-! DEFINITION. The named operations over the state: sparse tables, the blocks, path records, the completion list, the
condition queue, the send queue, the cell map, the claim monitors and the berth owner maps. -/

namespace Sys2Proof

/-! ### Sparse tables -/

/-- The listed value of a number. -/
def Sparse.find {α : Type} : Sparse α → Nat → Option α
  | [], _ => none
  | (j, v) :: r, k => if j = k then some v else Sparse.find r k

/-- The value of a number: the default where it is not listed. -/
def Sparse.get {α : Type} (d : α) (m : Sparse α) (k : Nat) : α := (Sparse.find m k).getD d

def Sparse.erase {α : Type} : Sparse α → Nat → Sparse α
  | [], _ => []
  | (j, v) :: r, k => if j = k then r else (j, v) :: Sparse.erase r k

/-- List a value, keeping the numbers rising. -/
def Sparse.insert {α : Type} : Sparse α → Nat → α → Sparse α
  | [], k, v => [(k, v)]
  | (j, w) :: r, k, v =>
    if k < j then (k, v) :: (j, w) :: r else if k = j then (k, v) :: r else (j, w) :: Sparse.insert r k v

/-- Write a value, keeping the canonical form: the default is not listed. -/
def Sparse.put {α : Type} [DecidableEq α] (d : α) (m : Sparse α) (k : Nat) (v : α) : Sparse α :=
  if v = d then Sparse.erase m k else Sparse.insert m k v

/-- Apply a function to every listed value. -/
def Sparse.mapVals {α β : Type} (f : Nat → α → β) (m : Sparse α) : Sparse β := m.map (fun e => (e.1, f e.1 e.2))

/-- The numbers are strictly rising. -/
def Sparse.rising {α : Type} : Sparse α → Bool
  | [] => true
  | [_] => true
  | (a, _) :: (b, v) :: r => a < b && Sparse.rising ((b, v) :: r)

/-- The canonical form: numbers strictly rising, and no value that an unlisted number reads as. -/
def Sparse.wf {α : Type} [DecidableEq α] (d : α) (m : Sparse α) : Bool :=
  Sparse.rising m && m.all (fun e => decide (e.2 ≠ d))

/-- A saturating count: `n + 1`, stopping at `top`. -/
def satInc (top n : Nat) : Nat := if n < top then n + 1 else top

namespace Machine

/-! ### Blocks -/

def State.setFtm (s : State) (x : Ftm) : State := { s with ftm := x }
def State.setClp (s : State) (x : Clp) : State := { s with clp := x }
def State.setCrx (s : State) (x : Crx) : State := { s with crx := x }
def State.setFil (s : State) (x : FilConsts) : State := { s with fil := x }
def State.setCbl (s : State) (x : Cbl) : State := { s with cbl := x }
def State.setHwy (s : State) (x : Hwy) : State := { s with hwy := x }
def State.setPtb (s : State) (x : Ptb) : State := { s with ptb := x }
def State.setCnd (s : State) (x : Cnd) : State := { s with cnd := x }
def State.setCmd (s : State) (x : Cmd) : State := { s with cmd := x }

/-! ### Ports and carriers -/

def State.rx (s : State) (p : Nat) : RxSide := Sparse.get RxSide.init s.clp.rx p
def State.tx (s : State) (p : Nat) : TxSide := Sparse.get TxSide.init s.clp.tx p
def State.carrier (s : State) (c : Nat) : Carrier := Sparse.get Carrier.init s.crx.carriers c

def State.setRx (s : State) (p : Nat) (r : RxSide) : State :=
  s.setClp { s.clp with rx := Sparse.put RxSide.init s.clp.rx p r }

def State.setTx (s : State) (p : Nat) (t : TxSide) : State :=
  s.setClp { s.clp with tx := Sparse.put TxSide.init s.clp.tx p t }

def State.setCarrier (s : State) (c : Nat) (x : Carrier) : State :=
  s.setCrx { s.crx with carriers := Sparse.put Carrier.init s.crx.carriers c x }

/-- The path a client port sources, and the path it sinks (R36). -/
def State.rxPath (s : State) (p : Nat) : Option Nat := Sparse.find s.ptb.rxBind p
def State.txPath (s : State) (p : Nat) : Option Nat := Sparse.find s.ptb.txBind p

/-- The feed list of an incoming carrier (section 2.7). -/
def State.feed (s : State) (c : Nat) : List FeedEntry := Sparse.get [] s.ptb.feeds c

def State.setFeed (s : State) (c : Nat) (l : List FeedEntry) : State :=
  s.setPtb { s.ptb with feeds := Sparse.put [] s.ptb.feeds c l }

/-! ### Path records -/

/-- The record of a handle; none for a handle not in use (R36). -/
def State.path (s : State) (h : Nat) : Option PathRec := Sparse.find s.ptb.paths h

def State.setPath (s : State) (h : Nat) (p : PathRec) : State :=
  s.setPtb { s.ptb with paths := Sparse.insert s.ptb.paths h p }

/-- Change a record, where it exists. -/
def State.modPath (s : State) (h : Nat) (f : PathRec → PathRec) : State :=
  match s.path h with
  | some p => s.setPath h (f p)
  | none => s

/-- The handles in use, lowest first. -/
def State.handles (s : State) : List Nat := s.ptb.paths.map (·.1)

/-- Take every record in order of handle. -/
def State.forPaths (s : State) (f : Nat → State → State) : State := s.handles.foldl (fun s h => f h s) s

/-- Change every record, each by itself. -/
def State.mapPaths (s : State) (f : Nat → PathRec → PathRec) : State :=
  s.setPtb { s.ptb with paths := Sparse.mapVals f s.ptb.paths }

/-- A request of HWY, FIL or CBL to PTB (R42): applied if the record exists and is still in the state named. -/
def State.request (s : State) (h : Nat) (found new : PState) : State :=
  s.modPath h (fun p => if p.state = found then { p with state := new } else p)

/-- The first record (in order of handle) of a role with a tag. Tags are unique (R45). -/
def State.findTag (s : State) (role : Role) (tag : Nat) : Option (Nat × PathRec) :=
  s.ptb.paths.find? (fun e => e.2.role == role && e.2.tag == tag)

/-! ### The completion list (R56) -/

/-- Replace the code of the entry of a handle, keeping its place. -/
def replaceCompletion (h : Nat) (c : Completion) (l : List (Nat × Completion)) : List (Nat × Completion) :=
  l.map (fun e => if e.1 = h then (h, c) else e)

/-- What a post makes of the record (R56). -/
def PathRec.posted (p : PathRec) (listed : Bool) (c : Completion) : PathRec :=
  if listed then { p with lastCompletion := some c, superseded := satInc 255 p.superseded }
  else { p with lastCompletion := some c, completionPending := true }

/-- The completion list holds an entry of the handle. -/
def State.listed (s : State) (h : Nat) : Bool := s.ptb.completions.any (fun e => e.1 == h)

/-- A block posts a completion (R56): a handle already in the list keeps its place, another joins the end, and a
handle not in use takes nothing. -/
def State.post (s : State) (h : Nat) (c : Completion) : State :=
  match s.path h with
  | none => s
  | some p =>
    s.setPtb { s.ptb with
      paths := Sparse.insert s.ptb.paths h (p.posted (s.listed h) c)
      completions := if s.listed h then replaceCompletion h c s.ptb.completions else s.ptb.completions ++ [(h, c)] }

/-! ### The condition queue and settings (R172 to R176) -/

/-- The code of a condition kind (R191). -/
def condCode : CondKind → Nat
  | .refLost => 1 | .clientLos => 2 | .clientLoa => 3 | .carrierLos => 4 | .carrierLoa => 5 | .sourceDefect => 6
  | .cellLoss => 7 | .cellCheck => 8 | .labelMismatch => 9 | .squelched => 10 | .fillSlip => 11 | .messageCheck => 12

/-- FILL_SLIP and MESSAGE_CHECK are events: they have no instance and no soak (R173). -/
def condIsEvent : CondKind → Bool
  | .fillSlip => true | .messageCheck => true | _ => false

/-- The default settings of a kind (R176). The soaks of the two events are not used. -/
def defaultSetting (k : CondKind) : Setting :=
  { type := if condIsEvent k then .raiseOnly else .raiseClear, raiseM := 0, raiseE := 1, clearM := 3, clearE := 2,
    repeatM := 3, repeatE := 3 }

/-- The settings in force of a kind (R176). -/
def Cnd.setting (c : Cnd) (k : CondKind) : Setting := Sparse.get (defaultSetting k) c.settings (condCode k)

/-- The multiframes of a soak or period from its codes (section 10.2): (2 + m) * 2^e. -/
def soakLength (m e : Nat) : Nat := (2 + m) * 2 ^ e

/-- Mark the tail record as overflowed and count one more lost (R174). -/
def markTail : List CondRec → List CondRec
  | [] => []
  | [r] => [{ r with overflow := true, dropped := satInc 127 r.dropped }]
  | r :: rs => r :: markTail rs

/-- Offer a record to the condition queue (R174). -/
def Cnd.offer (c : Cnd) (r : CondRec) : Cnd :=
  if c.quiet then c
  else if c.queue.length < 64 then { c with queue := c.queue ++ [r] }
  else { c with queue := markTail c.queue }

/-- An event reaches CND (R173). -/
def State.event (s : State) (k : CondKind) (o : CondObj) : State :=
  if (s.cnd.setting k).type = .off then s
  else s.setCnd (s.cnd.offer { kind := k, obj := o, edge := .event, mfCount := s.ftm.mfCount, overflow := false,
                               dropped := 0 })

/-- The place of an object in the order of R172. -/
def objRank : CondObj → Nat
  | .station => 0 | .carrier c => 1 + c | .port p => 5 + p | .path h => 37 + h

/-- The order number of an instance (R172): by object, then by the order of kinds of R169. -/
def condKey (k : CondKind) (o : CondObj) : Nat :=
  16 * objRank o +
    match k with
    | .refLost => 0 | .carrierLos => 0 | .carrierLoa => 1 | .clientLos => 0 | .clientLoa => 1 | .sourceDefect => 0
    | .labelMismatch => 1 | .cellLoss => 2 | .cellCheck => 3 | .squelched => 4 | .fillSlip => 5 | .messageCheck => 6

/-- The instance of a kind and an object; none where they are no pair of R169. -/
def State.inst (s : State) (k : CondKind) (o : CondObj) : Option Inst :=
  (Sparse.find s.cnd.insts (condKey k o)).filter (fun i => i.kind == k && i.obj == o)

/-- Create instances (R169). -/
def Cnd.addInsts (c : Cnd) (l : List (CondKind × CondObj)) : Cnd :=
  { c with insts := l.foldl (fun m e => Sparse.insert m (condKey e.1 e.2) (Inst.init e.1 e.2)) c.insts }

/-- Discard the instances of an object (R169). -/
def Cnd.dropInsts (c : Cnd) (o : CondObj) : Cnd := { c with insts := c.insts.filter (fun e => !(e.2.obj == o)) }

/-! ### The send queue (R101, R107) -/

/-- The station's state lets it create messages (R101). -/
def State.mayCreate (s : State) : Bool := s.hwy.station == .warming || s.hwy.station == .joined

/-- A message created now would join the send queue (R101, R107). -/
def State.hasRoom (s : State) : Bool := s.mayCreate && decide (s.hwy.sendQ.length < 8)

/-- Create a message: it joins the tail, or is not created (R101, R107). -/
def State.send (s : State) (m : Msg) : State :=
  if s.hasRoom then s.setHwy { s.hwy with sendQ := s.hwy.sendQ ++ [{ msg := m, age := 0 }] } else s

/-- Remove messages from the send queue; those behind close up in order (R106). -/
def State.unsend (s : State) (f : Msg → Bool) : State :=
  s.setHwy { s.hwy with sendQ := s.hwy.sendQ.filter (fun q => !f q.msg) }

/-- The own station number; absent before START (R100). -/
def State.isOwn (s : State) (n : Nat) : Bool := s.hwy.number == some n

/-- The own number as a Nat, for messages, which are created only after START (R100). -/
def State.self (s : State) : Nat := s.hwy.number.getD 0

/-! ### The cell map (R114) -/

def State.entry (s : State) (x : Nat) : CellEntry := Sparse.get .free s.hwy.cells x

/-- An own entry (R114). -/
def CellEntry.isOwn : CellEntry → Bool
  | .ownReserved _ _ => true | .ownHeld _ _ => true | _ => false

/-- Change the entries of a run of `n` cells from `first`. -/
def mapRun (m : Sparse CellEntry) (first : Nat) (f : CellEntry → CellEntry) : Nat → Sparse CellEntry
  | 0 => m
  | n + 1 =>
    let m' := mapRun m first f n
    Sparse.put .free m' (first + n) (f (Sparse.get .free m' (first + n)))

/-- Change the entries of a run in the station's cell map. -/
def State.onRun (s : State) (first k : Nat) (f : CellEntry → CellEntry) : State :=
  s.setHwy { s.hwy with cells := mapRun s.hwy.cells first f k }

/-- The record stops counting the run as its own: each own entry becomes FREE (R114). -/
def State.freeRun (s : State) (first k : Nat) : State :=
  s.onRun first k (fun e => if e.isOwn then .free else e)

/-- The run's own entries become HELD own (R133, R152). -/
def State.holdRun (s : State) (first k : Nat) : State :=
  s.onRun first k (fun e => match e with | .ownReserved h t => .ownHeld h t | e => e)

/-- Every entry of a run is FREE. -/
def State.runFree (s : State) (first k : Nat) : Bool := (List.range k).all (fun i => s.entry (first + i) == .free)

/-- Two runs share a cell. -/
def runsMeet (a ka b kb : Nat) : Bool := decide (a < b + kb) && decide (b < a + ka)

/-! ### The claim monitors (R122) -/

def Monitor.info : Monitor → Option Bound
  | .idle => none | .bound b => some b | .running b _ => some b

/-- The monitor is bound to a claim of the handle. -/
def Monitor.isFor (h : Nat) (m : Monitor) : Bool :=
  match m.info with
  | some b => b.handle == h
  | none => false

/-- The monitors bound to the handle stop and are IDLE (R127). -/
def State.idleMonitors (s : State) (h : Nat) : State :=
  s.setHwy { s.hwy with mons := s.hwy.mons.map (fun m => if m.isFor h then .idle else m) }

def State.hasIdle (s : State) : Bool := s.hwy.mons.any (fun m => m == .idle)

/-- A claim takes an IDLE monitor (R124): of two the first, which READ STATION returns first (log 35: DESIGN CHOICE). -/
def bindMonitor (b : Bound) : List Monitor → List Monitor
  | [] => []
  | .idle :: r => .bound b :: r
  | m :: r => m :: bindMonitor b r

/-- The monitor bound to the handle, if one is. -/
def State.monitorOf (s : State) (h : Nat) : Option Monitor := s.hwy.mons.find? (fun m => m.isFor h)

/-- A claim of the handle is in the send queue and has not been sent (R122). -/
def State.claimQueued (s : State) (h : Nat) : Bool :=
  s.hwy.mons.any (fun m => match m with | .bound b => b.handle == h | _ => false)

/-- Remove the queued CLAIM of a tag from the send queue (R106). -/
def State.unsendClaim (s : State) (tag : Nat) : State :=
  s.unsend (fun m => match m with | .claim b => b.tag == tag | _ => false)

/-- Remove the queued ACCEPT of a tag, with or without the move flag (R106, R154). -/
def State.unsendAccept (s : State) (tag : Nat) (move : Bool) : State :=
  s.unsend (fun m => match m with | .accept b => b.tag == tag && b.move == move | _ => false)

/-! ### The berth owner maps (R84) -/

def berthKey (c b : Nat) : Nat := 432 * c + b

def State.owner (s : State) (c b : Nat) : Option Owner := Sparse.find s.cbl.owners (berthKey c b)

/-- Make a handle the owner of a group, in a role. -/
def ownGroup (m : Sparse Owner) (c b : Nat) (o : Owner) : Nat → Sparse Owner
  | 0 => m
  | n + 1 => Sparse.insert (ownGroup m c b o n) (berthKey c (b + n)) o

/-- Take the owner of a group away. -/
def disownGroup (m : Sparse Owner) (c b : Nat) : Nat → Sparse Owner
  | 0 => m
  | n + 1 => Sparse.erase (disownGroup m c b n) (berthKey c (b + n))

def State.setOwner (s : State) (c b k h : Nat) (r : BerthRole) : State :=
  s.setCbl { s.cbl with owners := ownGroup s.cbl.owners c b { handle := h, role := r } k }

def State.clearOwner (s : State) (c b k : Nat) : State :=
  s.setCbl { s.cbl with owners := disownGroup s.cbl.owners c b k }

/-- Some berth of a group has an owner that satisfies `f`. -/
def State.anyOwner (s : State) (c b k : Nat) (f : Owner → Bool) : Bool :=
  (List.range k).any (fun i => match s.owner c (b + i) with | some o => f o | none => false)

end Machine
end Sys2Proof
end

