-- ==== Sys2Proof/Machine/Flags.lean ====
section
/-! DEFINITION. What the part reads off its state: port sizes, liveness, whether a source delivers, labels, the raw
states handed each frame, the status byte and the interrupt line. -/

namespace Sys2Proof.Machine

/-! ### Client ports (R16, R17) -/

/-- The port size; none for an unused port (R16). -/
def portSize (sizing : BitVec 8) (p : Nat) : Option Nat :=
  if sizing.getLsbD (p / 4) then (if p % 4 = 0 then some 4 else none) else some 1

def State.portSize (s : State) (p : Nat) : Option Nat := Machine.portSize s.clp.sizing p

/-- A used port has a port size (R16). -/
def State.used (s : State) (p : Nat) : Bool := (s.portSize p).isSome

/-- The size with which a port frames its bytes: 1 for an unused port, whose transmit side alone works (R16, R25). -/
def State.txSize (s : State) (p : Nat) : Nat := (s.portSize p).getD 1

/-- A path agrees with the sizing of a port (R17). -/
def State.portAgrees (s : State) (p k : Nat) : Bool := s.portSize p == some k

/-! ### Liveness (R38) -/

def isLive (r : Role) (st : PState) : Bool :=
  match r with
  | .sink => st == .receiving || st == .moving
  | _ => st == .carrying || st == .moving

def PathRec.live (p : PathRec) : Bool := isLive p.role p.state

def PathRec.hasSource (p : PathRec) : Bool := p.role == .loc || p.role == .source
def PathRec.hasSink (p : PathRec) : Bool := p.role == .loc || p.role == .sink

/-- The live state a record returns to when a move of its berths ends (R148, R149). -/
def PathRec.liveState (p : PathRec) : PState := if p.role == .sink then .receiving else .carrying

/-- A SINK record that receives its cells (R138). -/
def PathRec.receives (p : PathRec) : Bool := p.role == .sink && p.live

/-! ### Sources (R22, R31, R66) -/

/-- The decoded code that a berth of an incoming carrier holds. -/
def State.codeHeld (s : State) (c b : Nat) : Option Code := Sparse.find (s.carrier c).codes b

/-- The decoded code delivers (R31). -/
def Code.delivers : Code → Bool
  | .maintenance => false | .idle => false | _ => true

/-- A set of berths, as a mask. -/
def berthSet (l : List Nat) : BitVec 432 := l.foldl (fun m b => m ||| BitVec.twoPow 432 b) 0

/-- The berths that hold a delivering code, decoded since their carrier became ALIGNED (R31). -/
def Carrier.delivering (r : Carrier) : BitVec 432 :=
  berthSet ((r.codes.filter (fun e => Code.delivers e.2)).map (·.1)) &&& r.decoded

/-- The source of a path is in a not-delivering condition at this moment (R66). A berth that has not been decoded
since its carrier became ALIGNED does not deliver, whatever code it holds from before (R29, R31; log 19: DEDUCED). -/
def State.notDelivering (s : State) (p : PathRec) : Bool :=
  match p.source with
  | none => false
  | some (.port q) =>
    !s.portAgrees q p.k || !((s.rx q).align == .aligned) || (s.rx q).los || (s.rx q).maint
  | some (.carrier c b) =>
    !((s.carrier c).align == .aligned) || !((s.codeHeld c b).any Code.delivers) || !(s.carrier c).decoded.getLsbD b

/-- The source of a path has been not delivering at some time of this frame, whether or not the path has existed so long
(R22, R31). -/
def State.notDeliveredAll (s : State) (p : PathRec) : Bool :=
  s.notDelivering p ||
  match p.source with
  | none => false
  | some (.port q) => (s.rx q).loaSeen || (s.rx q).losSeen || (s.rx q).maintSeen
  | some (.carrier c b) => (s.carrier c).loaSeen || !(s.carrier c).delivered.getLsbD b

/-- A path's source is not delivering now: its fill context and its frame see it (R35, R66). -/
def State.markPath (s : State) (h : Nat) : State :=
  match s.path h with
  | none => s
  | some p =>
    if s.notDelivering p then
      s.setPath h { p with srcBadSeen := true, fil := p.fil.map (fun f => { f with defectSeen := true }) }
    else s

/-! ### The constants of FIL (R63) -/

/-- The constants that apply to a path: the defaults until its first decision point after START, also for a path that is
added after START (R63; log 31: DEDUCED). -/
def State.filFor (s : State) (p : PathRec) : FilConsts := if p.filNew then s.fil else FilConsts.initial

/-! ### Labels (R34, R88) -/

/-- A character as the part sends it: 0x20 in place of 0x7F (R13). -/
def sentChar (c : Char7) : Char7 := if c = 0x7F then 0x20 else c

/-- The feed-list entry of an incoming group. -/
def State.feedOf (s : State) (c b k : Nat) : Option FeedEntry :=
  (s.feed c).find? (fun e => e.first == b && e.k == k)

/-- The confirmed label of a path's incoming group (R33). -/
def State.confirmed (s : State) (p : PathRec) : Option Label :=
  match p.source with
  | some (.carrier c b) => (s.feedOf c b p.k).bind (·.cap.confirmed)
  | _ => none

/-- The confirmed label differs from the expected label (R34). -/
def State.mislabelled (s : State) (p : PathRec) : Bool :=
  match p.source, p.label, s.confirmed p with
  | some (.carrier _ _), some e, some l => !(e.map sentChar == l)
  | _, _, _ => false

def zeroLabel : Label := [0, 0, 0, 0, 0, 0, 0, 0]

/-- The label a path's groups and cells send (R88). -/
def State.labelSent (s : State) (p : PathRec) : Label :=
  match p.role with
  | .sink => p.labelBuf
  | _ =>
    match p.source with
    | some (.carrier _ _) => (s.confirmed p).getD zeroLabel
    | _ => p.label.getD zeroLabel

/-- The character a path sends in a frame (R88). -/
def State.labelChar (s : State) (p : PathRec) (frame : Nat) : Char7 := sentChar ((s.labelSent p).getD (frame % 8) 0)

/-! ### Raw states of the frame just ended (R24, R28, R34, R35, R97, R140) -/

/-- The raw state that the owning block hands CND for an instance (R170). -/
def State.raw (s : State) (k : CondKind) (o : CondObj) : Bool :=
  match k, o with
  | .refLost, .station => s.ftm.refLostSeen
  | .carrierLos, .carrier c => (s.carrier c).losSeen
  | .carrierLoa, .carrier c => (s.carrier c).loaSeen && !(s.carrier c).losSeen
  | .clientLos, .port p => s.used p && (s.rx p).raising && (s.rx p).losSeen
  | .clientLoa, .port p => s.used p && (s.rx p).raising && (s.rx p).loaSeen && !(s.rx p).losSeen
  | .sourceDefect, .path h =>
    match s.path h with
    | some p => if p.role == .sink then p.sk.rawDefect else p.srcBadSeen
    | none => false
  | .labelMismatch, .path h => match s.path h with | some p => p.lmSeen | none => false
  | .cellLoss, .path h => match s.path h with | some p => p.sk.rawLoss | none => false
  | .cellCheck, .path h => match s.path h with | some p => p.sk.rawCheck | none => false
  | .squelched, .path h => match s.path h with | some p => p.hasSink && p.sq.onSeen | none => false
  | _, _ => false

/-- A selected squelch source was present in the frame just ended (R92). The set's bits are those of R191:
SOURCE_DEFECT, CELL_LOSS, CELL_CHECK, FILL_SLIP, LABEL_MISMATCH. -/
def PathRec.selectedPresent (p : PathRec) : Bool :=
  match p.sqSet with
  | none => false
  | some q =>
    (q.getLsbD 0 && (if p.role == .sink then p.sk.rawDefect else p.srcBadSeen)) ||
    (q.getLsbD 1 && p.role == .sink && p.sk.rawLoss) ||
    (q.getLsbD 2 && p.role == .sink && p.sk.rawCheck) ||
    (q.getLsbD 3 && p.role == .loc && p.slipSeen) ||
    (q.getLsbD 4 && p.role == .loc && p.lmSeen)

/-! ### The command port (R180, R185) -/

/-- The interrupt line (R185). -/
def State.intLine (s : State) : Bool :=
  s.cmd.waiting || !s.ptb.completions.isEmpty || (!s.cnd.queue.isEmpty && !s.cnd.quiet)

/-- The REQ field (R180). -/
def State.req (s : State) : Bool :=
  match s.cmd.phase with
  | .command => decide (s.cmd.inFifo.length < 16)
  | .result => !s.cmd.outFifo.isEmpty
  | .execution => false

/-- The status byte as a read returns it (R180, section 12.2). -/
def State.statusByte (s : State) : Byte :=
  BitVec.ofBool s.req ++ BitVec.ofBool (s.cmd.phase == .result) ++
  (match s.cmd.phase with | .command => 0#2 | .execution => 1#2 | .result => 2#2) ++
  BitVec.ofBool s.intLine ++ BitVec.ofBool s.cmd.started ++ 0#2

/-! ### Outgoing overhead (R12) -/

/-- The eight overhead bytes of an outgoing carrier in this frame (R12). -/
def State.carrierOverhead (s : State) (c : Nat) : List Byte :=
  carrierPattern ++ [BitVec.ofNat 8 s.ftm.frame, BitVec.ofNat 8 c, 0, 0]

end Sys2Proof.Machine
end

