-- ==== Sys2Proof/Machine/Conditions.lean ====
section
/-! DEFINITION. The condition monitor: samples (R170), soaks and edges (R171, R172), the boundary's records, and the
rows SOAK_EXPIRY and REPEAT_EXPIRY. -/

namespace Sys2Proof.Machine

/-- A report type makes a record of an edge (R172). -/
def recordsEdge (t : ReportType) (e : Edge) : Bool :=
  match t, e with
  | .off, _ => false
  | _, .rise => true
  | .raiseOnly, _ => false
  | _, .clear => true
  | .repeating, .standing => true
  | _, _ => false

/-- The declared state changes at this boundary (R171). -/
def Inst.soaked (st : Setting) (i : Inst) : Bool :=
  match i.declared, i.sample with
  | false, true => decide (soakLength st.raiseM st.raiseE ≤ satInc 72 i.soak)
  | true, false => decide (soakLength st.clearM st.clearE ≤ satInc 72 i.soak)
  | _, _ => false

/-- The declared state changes, with both counters 0 (R171). -/
def Inst.flip (i : Inst) : Inst := { i with declared := !i.declared, soak := 0, rep := 0 }

/-- The repeat counter of a declared instance that made no other edge (R171). -/
def Inst.repeatStep (st : Setting) (i : Inst) : Inst × Option Edge :=
  if soakLength st.repeatM st.repeatE ≤ satInc 72 i.rep then ({ i with rep := 0 }, some .standing)
  else ({ i with rep := satInc 72 i.rep }, none)

/-- One instance at a boundary: its update and the edge it makes (R171). -/
def Inst.update (st : Setting) (i : Inst) : Inst × Option Edge :=
  if i.soaked st then (i.flip, some (if i.declared then .clear else .rise))
  else
    let j := { i with soak := if i.declared == i.sample then 0 else satInc 72 i.soak }
    if i.declared then j.repeatStep st else (j, none)

/-- The record of an edge, with the multiframe count it carries (R172). -/
def Inst.record (i : Inst) (e : Edge) (mf : Nat) : CondRec :=
  { kind := i.kind, obj := i.obj, edge := e, mfCount := mf, overflow := false, dropped := 0 }

/-- Offer the record of an edge, as the kind's report type allows (R172). -/
def Cnd.edge (c : Cnd) (i : Inst) (e : Edge) (mf : Nat) : Cnd :=
  if recordsEdge (c.setting i.kind).type e then c.offer (i.record e mf) else c

/-- Every instance takes the raw state of the frame just ended into its sample (R170). -/
def State.sampleFrame (s : State) : State :=
  let take := fun (i : Inst) => { i with sample := i.sample || s.raw i.kind i.obj }
  s.setCnd { s.cnd with insts := Sparse.mapVals (fun _ i => take i) s.cnd.insts }

/-- An instance after a boundary: its sample is absent for the new multiframe (R170, R171). -/
def Inst.atBoundary (st : Setting) (i : Inst) : Inst := { (i.update st).1 with sample := false }

/-- The boundary at CND: every instance in the order of R172, with the count of the multiframe just ended (R171,
R172). The samples become absent for the new multiframe (R170). -/
def Cnd.boundary (c : Cnd) (mf : Nat) : Cnd :=
  let next : Cnd := { c with insts := Sparse.mapVals (fun _ i => i.atBoundary (c.setting i.kind)) c.insts }
  c.insts.foldl (fun d e =>
    match (e.2.update (c.setting e.2.kind)).2 with
    | some edge => d.edge e.2 edge mf
    | none => d) next

/-- Replace an instance. -/
def State.setInst (s : State) (i : Inst) : State :=
  s.setCnd { s.cnd with insts := Sparse.insert s.cnd.insts (condKey i.kind i.obj) i }

/-- SOAK_EXPIRY (R171): the soak counter of an instance reaches its soak. -/
def execSoakExpiry (k : CondKind) (o : CondObj) (s : State) : Host.Outcome State Fault Refusal :=
  .next (
    match s.inst k o with
    | none => s
    | some i =>
      if i.soaked (s.cnd.setting i.kind) then
        let s' := s.setInst i.flip
        s'.setCnd (s'.cnd.edge i (if i.declared then .clear else .rise) s.ftm.mfCount)
      else s)

/-- REPEAT_EXPIRY (R171): the repeat counter of a declared instance reaches its period. -/
def execRepeatExpiry (k : CondKind) (o : CondObj) (s : State) : Host.Outcome State Fault Refusal :=
  .next (
    match s.inst k o with
    | none => s
    | some i =>
      if i.declared && !i.soaked (s.cnd.setting i.kind) then
        match i.repeatStep (s.cnd.setting i.kind) with
        | (j, some e) =>
          let s' := s.setInst j
          s'.setCnd (s'.cnd.edge i e s.ftm.mfCount)
        | (_, none) => s
      else s)

/-- The STANDING records of RESUME, in the order of R172 (R177). -/
def Cnd.resume (c : Cnd) (mf : Nat) : Cnd :=
  c.insts.foldl (fun d e =>
    if e.2.declared && !((c.setting e.2.kind).type == .off) then d.offer (e.2.record .standing mf) else d)
    { c with quiet := false, queue := [] }

end Sys2Proof.Machine
end

