-- ==== Sys2Proof/Machine/Operands.lean ====
section
/-! DEFINITION. Operand forms: how a path's bytes lie in berths and cells (R13, R15), the places of decision points in
the frame (R11), and the byte forms that results share (R191). -/

namespace Sys2Proof.Machine

/-! ### Contents in berths and cells (R13, R15) -/

def Dec.code : Dec → Code
  | .normal => .normal | .extra => .extra | .short => .short

/-- The number of data bytes of a path frame (R69). -/
def frameBytes (k : Nat) : Dec → Nat
  | .normal => 90 * k | .extra => 90 * k + 1 | .short => 90 * k - 1

/-- The data bytes that a first berth carries under each code (R13). -/
def firstBytes : Code → Nat
  | .normal => 90 | .extra => 91 | .short => 89 | .maintenance => 0 | .idle => 0

/-- A list cut or filled to `n` bytes. -/
def padTo (fill : Byte) (n : Nat) (l : List Byte) : List Byte := l.take n ++ List.replicate (n - l.length) fill

/-- The 91 payload positions of the first berth or cell: data, then 0x00 in the positions the code leaves (R13). -/
def firstPositions (code : Code) (bytes : List Byte) : List Byte :=
  match code with
  | .maintenance => List.replicate 91 0x55
  | .idle => List.replicate 91 0x00
  | c => padTo 0x00 91 (bytes.take (firstBytes c))

/-- The 91 payload positions of berth `i + 1` of a group, or of the cell with index `i` (R13, R15). -/
def positions (code : Code) (bytes : List Byte) (i : Nat) : List Byte :=
  match i with
  | 0 => firstPositions code bytes
  | j + 1 =>
    match code with
    | .maintenance => List.replicate 91 0x55
    | .idle => List.replicate 91 0x00
    | c => padTo 0x00 91 ((bytes.drop (firstBytes c + 90 * j)).take 90)

/-- The code of the berth or cell with index `i`: NORMAL behind a data-carrying first one (R13, R15). -/
def codeAt (code : Code) (i : Nat) : Code :=
  match i, code with
  | 0, c => c
  | _, .maintenance => .maintenance
  | _, .idle => .idle
  | _, _ => .normal

/-- The 95 bytes of one berth (R13). -/
def berthBytes (code : Code) (label : Byte) (payload : List Byte) : List Byte :=
  [code.byte, code.byte, code.byte, label] ++ payload

/-- The bytes of a group in one frame: its label character stands in the first berth, 0x00 in the others, and in an
IDLE berth 0x00 (R13). -/
def groupBytes (k : Nat) (code : Code) (label : Char7) (bytes : List Byte) : List Byte :=
  (List.range k).flatMap (fun i =>
    berthBytes (codeAt code i) (if i = 0 && code != .idle then label.zeroExtend 8 else 0x00) (positions code bytes i))

/-! ### Places in the frame (R11) -/

/-- The place of a path's decision point under its present state (R11). -/
def PathRec.placeNow (p : PathRec) : Place :=
  match p.role with
  | .sink => .frameStart
  | .loc =>
    match p.sink with
    | some (.carrier _ b) => .berth b
    | _ => .frameStart
  | .source =>
    if p.live then
      match p.hw.move, p.hw.cells with
      | some m, some x => if m.phase = .retiring then .cell (m.new.getD x) else .cell x
      | none, some x => .cell x
      | _, none => .frameStart
    else .frameStart

/-- The slots of a segment: the burst and 64 cells (R15). -/
def segmentSlots : Nat := 65

/-- The shares of the first `n` slots of a segment, one behind another (R15; log 8). -/
def sharesBefore (seg : Nat) : Nat → Nat
  | 0 => 0
  | n + 1 => sharesBefore seg n + Config.slotShare seg n

/-- How far into its segment, of `len` picoseconds, a slot starts: each slot before it takes one picosecond and its
share of the rest, so the slots stand in the order of R15. -/
def slotStart (len seg slot : Nat) : Nat :=
  slot + (len - segmentSlots) * sharesBefore seg slot / sharesBefore seg segmentSlots

/-- The time from the frame start to a place, in a frame of `period` picoseconds (R11, R15): cell x is behind burst
x / 64 and the cells of its segment before it. -/
def placeOffset (period : Nat) : Place → Nat
  | .frameStart => 0
  | .berth b => (8 + 95 * b) * period / Config.carrierBytes
  | .cell x => (x / 64) * period / 16 + slotStart (period / 16) (x / 64) (x % 64 + 1)

/-- The instant of the path's next decision point, from instant `t` (R11, R23): once that of this frame has been taken,
the one that follows (R68). -/
def State.nextDecision (s : State) (p : PathRec) (t : Nat) : Nat :=
  let here := s.ftm.lastStart + placeOffset s.ftm.period p.place
  if t ≤ here ∧ p.decided = false then here else here + s.ftm.period

/-- The lead of a capture made at instant `t` (R23): whole client byte times, at the nominal byte time of the port
size, to the next decision point, in 0..90k + 1. -/
def State.lead (s : State) (size : Nat) (p : PathRec) (t : Nat) : Nat :=
  min (90 * size + 1) ((s.nextDecision p t - t) * (2 + 90 * size) / Config.framePs)

/-! ### Byte forms of results (R191) -/

def byteOf (n : Nat) : Byte := BitVec.ofNat 8 n
def be2 (n : Nat) : List Byte := [byteOf (n / 256), byteOf n]
def flagByte (b : Bool) : Byte := if b then 1 else 0
/-- A field of `n` bytes whose value is absent. -/
def absent (n : Nat) : List Byte := List.replicate n 0xFF
def opt1 (o : Option Nat) : List Byte := match o with | some n => [byteOf n] | none => absent 1
def opt2 (o : Option Nat) : List Byte := match o with | some n => be2 n | none => absent 2
/-- A signed value in two bytes of two's complement. -/
def int2 (i : Int) : List Byte := be2 (BitVec.ofInt 16 i).toNat
def labelBytes (l : Label) : List Byte := l.map (fun c => c.zeroExtend 8)
def optLabel (o : Option Label) : List Byte := match o with | some l => labelBytes l | none => absent 8

/-- An endpoint in four bytes: type, number, berth (R191). -/
def endpointOut : Option Endpoint → List Byte
  | none => 0 :: absent 3
  | some (.port p) => [1, byteOf p] ++ absent 2
  | some (.carrier c b) => [2, byteOf c] ++ be2 b

def Role.out : Role → Byte
  | .loc => 0 | .source => 1 | .sink => 2

def PState.out : PState → Byte
  | .defined => 0 | .waiting => 1 | .claiming => 2 | .carrying => 3 | .collided => 4 | .moving => 5 | .blocked => 6
  | .stranded => 7 | .listening => 8 | .accepted => 9 | .receiving => 10

def EndCause.out : EndCause → Byte
  | .sourceLost => 1 | .slip => 2 | .disabled => 3

def MoveCause.out : MoveCause → Byte
  | .endpointBusy => 1 | .noCells => 2 | .refused => 3 | .expired => 4 | .collision => 5 | .disabled => 6 | .mute => 7
  | .lost => 8

/-- The completion code and its cause byte (R191). -/
def Completion.out : Completion → List Byte
  | .claimAccepted => [1, 0]
  | .claimRefused r => [2, byteOf r.code]
  | .claimExpired => [3, 0]
  | .stranded => [4, 0]
  | .sinkStarted => [5, 0]
  | .sinkLost => [6, 0]
  | .recentred => [7, 0]
  | .recentreIncomplete => [8, 0]
  | .recentreEnded c => [9, c.out]
  | .nudged => [10, 0]
  | .nudgeLimit => [11, 0]
  | .moveDone => [12, 0]
  | .moveFailed c => [13, c.out]

def Relation.out : Relation → Byte
  | .equal => 0 | .less => 1 | .greater => 2

def ReportType.out : ReportType → Byte
  | .off => 0 | .raiseOnly => 1 | .raiseClear => 2 | .repeating => 3

def Edge.out : Edge → Byte
  | .rise => 1 | .clear => 2 | .standing => 3 | .event => 4

/-- Object type and number (R191); the station has no number. -/
def objOut : CondObj → List Byte
  | .station => 0 :: absent 2
  | .carrier c => 1 :: be2 c
  | .port p => 2 :: be2 p
  | .path h => 3 :: be2 h

/-- A condition record in eight bytes (R191). -/
def CondRec.out (r : CondRec) : List Byte :=
  [byteOf (condCode r.kind)] ++ objOut r.obj ++ [r.edge.out] ++ be2 r.mfCount ++
  [byteOf ((if r.overflow then 128 else 0) + r.dropped)]

/-- A cell-map entry in eight bytes (R120, R191). In the flags byte the bit of a field that the entry does not hold is 0
(log 39: DESIGN CHOICE). -/
def CellEntry.out : CellEntry → List Byte
  | .free => [0] ++ absent 5 ++ [0, 0]
  | .reserved h t age acc rel =>
    [1, byteOf h] ++ be2 t ++ [byteOf ((if acc then 2 else 0) + (if rel then 4 else 0)), byteOf age, 0, 0]
  | .held h t silent rel => [2, byteOf h] ++ be2 t ++ [byteOf (if rel then 4 else 0), byteOf silent, 0, 0]
  | .ownReserved h t => [1, byteOf h] ++ be2 t ++ [1] ++ absent 1 ++ [0, 0]
  | .ownHeld h t => [2, byteOf h] ++ be2 t ++ [1] ++ absent 1 ++ [0, 0]

/-- A section of READ PATH or READ STATION: number, length, fields (R191). -/
def sectionOut (n : Nat) (l : List Byte) : List Byte := [byteOf n, byteOf l.length] ++ l

/-- Termination codes (R191). -/
inductive Term where
  | ok | invalid | busy | refused | notStarted | aborted | notFound | noLabels | notReady | notLive
  deriving DecidableEq, Repr

def Term.byte : Term → Byte
  | .ok => 0 | .invalid => 1 | .busy => 2 | .refused => 3 | .notStarted => 4 | .aborted => 5 | .notFound => 6
  | .noLabels => 7 | .notReady => 8 | .notLive => 9

/-- The REFUSED reasons of ADD, ENABLE and MOVE (R43, R191). -/
inductive Reason where
  | roleMismatch | alignment | portSize | duplicateTag | endpointBusy | tableFull
  deriving DecidableEq, Repr

def Reason.byte : Reason → Byte
  | .roleMismatch => 1 | .alignment => 2 | .portSize => 3 | .duplicateTag => 4 | .endpointBusy => 5 | .tableFull => 6

/-- The result of a refused command: REFUSED and one reason byte (R183). -/
def refusedBy (r : Reason) : List Byte := [Term.refused.byte, r.byte]

end Sys2Proof.Machine
end

