-- ==== Sys2Proof/Machine/Builders.lean ====
section
/-! DEFINITION. Carrier builders and client transmit sides: the carry queue (R86, R87), group starts (R85, R88), client
transmit sides (R25, R26, R89), squelch (R91 to R97), and their command rows. -/

namespace Sys2Proof.Machine

/-! ### The carry queue (R86, R87) -/

/-- A content joins the queue with its debtors. With two entries held, the oldest leaves first; an entry with no
debtor leaves at once (R86). -/
def joinCarry (q : List CarryEntry) (c : Content) (ds : List Debtor) : List CarryEntry :=
  if ds.isEmpty then q
  else (if q.length < 2 then q else q.drop (q.length - 1)) ++ [{ content := c, debtors := ds }]

/-- The oldest entry of which a place is a debtor, and the queue with that debt paid (R87). -/
def takeCarry (d : Debtor) : List CarryEntry → Option Content × List CarryEntry
  | [] => (none, [])
  | e :: r =>
    if e.debtors.contains d then
      let left := e.debtors.filter (fun x => !(x == d))
      (some e.content, if left.isEmpty then r else { e with debtors := left } :: r)
    else
      let (c, r') := takeCarry d r
      (c, e :: r')

/-- The groups that take a path's contents in this frame, in role PRIMARY or BRIDGE (R86). -/
def State.groupDebtors (s : State) (h : Nat) : List Debtor :=
  (s.cbl.plan.filter (fun g => g.handle == some h && !(g.role == .retiring))).map (fun g => .group g.carrier g.first)

/-- The debtors of a content handed for a path (R86). -/
def State.debtorsOf (s : State) (h : Nat) (p : PathRec) : List Debtor :=
  s.groupDebtors h ++
  match p.sink with
  | some (.port q) => if s.txPath q = some h then [.client q] else []
  | _ => []

/-- A content joins the carry queue of a path with a local sink (R86). -/
def State.carryJoin (s : State) (h : Nat) (c : Content) : State :=
  s.modPath h (fun p => { p with carry := joinCarry p.carry c (s.debtorsOf h p) })

/-! ### Client transmit sides (R25, R26, R89) -/

/-- Maintenance fill, or nothing, is handed at a frame start: a fill frame begins (R25). -/
def TxSide.handFill (t : TxSide) : TxSide :=
  { t with data := false, count := 0, word := 0, handed := [], fillPos := 0 }

/-- A path's data bytes are handed (R25). -/
def TxSide.handData (t : TxSide) (bytes : List Byte) : TxSide :=
  if t.data then { t with handed := t.handed ++ bytes }
  else { t with data := true, count := 0, word := 0, handed := bytes, fillPos := 0 }

/-- What CBL hands a client side for a path that is carried: the data bytes of the content, or maintenance fill
(R89). A path that disagrees with the port's sizing is held in FILL (R17). -/
def TxSide.handContent (t : TxSide) (agrees : Bool) : Option Content → TxSide
  | some c =>
    if agrees && !(c.code == .maintenance || c.code == .idle) then t.handData c.bytes else t.handFill
  | none => t.handFill

/-- One byte time of a transmit side whose frames have `k` (R25, R26). -/
def TxSide.sendByte (t : TxSide) (k : Nat) : TxSide :=
  if t.data then
    match t.handed with
    | [] => t
    | b :: r =>
      if t.count = 0 && t.word < 2 then
        { t with word := t.word + 1, out := some (if t.word = 0 then wordFirst else wordNormal) }
      else if t.count + 1 = 90 * k then { t with handed := r, count := 0, word := 0, out := some b }
      else { t with handed := r, count := t.count + 1, out := some b }
  else if t.fillPos < 2 + 90 * k then
    { t with fillPos := t.fillPos + 1
             out := some (if t.fillPos = 0 then wordFirst else if t.fillPos = 1 then wordMaint else 0xFF) }
  else t

/-- A bound client side takes its entry and is handed its content (R87, R89), by the path's liveness and squelch state
at the frame start. -/
def State.clientTake (s : State) (q h : Nat) : State :=
  match s.path h with
  | none => s
  | some p =>
    let (c, rest) := takeCarry (.client q) p.carry
    let s' := s.setPath h { p with carry := rest }
    if p.liveF && !p.squelchF then s'.setTx q ((s'.tx q).handContent (s.portAgrees q p.k) c)
    else s'

/-- What a client side is handed at the frame start itself (R89). A LOCAL path that is carried hands its content at
its decision point, which is the same instant (R11, R87; log 9: DESIGN CHOICE): a side in DATA waits for it, and a
side in FILL begins its fill frame. -/
def State.clientFrame (s : State) (q : Nat) : State :=
  match s.txPath q with
  | none => s.setTx q (s.tx q).handFill
  | some h =>
    match s.path h with
    | none => s.setTx q (s.tx q).handFill
    | some p =>
      if p.liveF && !p.squelchF && s.portAgrees q p.k then
        if p.role == .sink then s.clientTake q h
        else if (s.tx q).data then s else s.setTx q (s.tx q).handFill
      else
        let s' := s.setTx q (s.tx q).handFill
        if p.role == .sink then s'.clientTake q h else s'

/-! ### Group starts (R85) -/

/-- What a group carries in a frame, before R88's label: its code and bytes (R85). -/
def groupContent (g : GroupPlan) (squelched : Bool) (taken : Option Content) : Content :=
  match g.role, g.live, squelched, taken with
  | .retiring, _, _, _ => { code := .maintenance, bytes := [] }
  | _, true, false, some c =>
    if c.code == .maintenance || c.code == .idle then { code := .maintenance, bytes := [] } else c
  | _, _, _, _ => { code := .maintenance, bytes := [] }

def State.setGroupOut (s : State) (c b : Nat) (bytes : List Byte) : State :=
  s.setCbl { s.cbl with out := Sparse.insert s.cbl.out c { first := b, bytes := bytes } }

/-- The owned group that contains a berth, as CBL took the map at the frame start. -/
def State.groupAt (s : State) (c b : Nat) : Option GroupPlan :=
  s.cbl.plan.find? (fun g => g.carrier == c && decide (g.first ≤ b) && decide (b < g.first + g.k))

/-- The start of an owned group: it takes its entry, unless it is RETIRING, and is filled (R85, R87). -/
def State.startGroup (s : State) (g : GroupPlan) : State :=
  let image := fun (sq : Bool) (t : Option Content) =>
    groupBytes g.k (groupContent g sq t).code g.label (groupContent g sq t).bytes
  match g.handle with
  | none => s.setGroupOut g.carrier g.first (image false none)
  | some h =>
    match s.path h with
    | none => s.setGroupOut g.carrier g.first (image false none)
    | some p =>
      if g.role = .retiring then s.setGroupOut g.carrier g.first (image p.sq.on none)
      else
        let (c, rest) := takeCarry (.group g.carrier g.first) p.carry
        (s.setPath h { p with carry := rest }).setGroupOut g.carrier g.first (image p.sq.on c)

/-- GROUP_START (R85): a berth with no owner carries IDLE; no group starts at a later berth of an owned group. -/
def execGroupStart (c b : Nat) (s : State) : Host.Outcome State Fault Refusal :=
  if 4 ≤ c then .fault (.noSuchCarrier c)
  else if Config.berths ≤ b then .fault (.noSuchBerth b)
  else
    match s.groupAt c b with
    | none => .next (s.setGroupOut c b (groupBytes 1 .idle 0 []))
    | some g => .next (if g.first = b then s.startGroup g else s)

/-- CLIENT_TRANSMIT_BYTE (R25, R26). -/
def execClientTransmitByte (p : Nat) (s : State) : Host.Outcome State Fault Refusal :=
  if 32 ≤ p then .fault (.noSuchPort p) else .next (s.setTx p ((s.tx p).sendByte (s.txSize p)))

/-! ### Squelch (R93 to R97) -/

/-- The frame just ended, at the frame start: a selected source turns squelch on (R93). -/
def PathRec.squelchOnset (p : PathRec) : PathRec :=
  if p.hasSink && p.selectedPresent then { p with sq := { p.sq with on := true, srcSeenMf := true } } else p

/-- The three conditions of a lift (R95). -/
def PathRec.mayLift (p : PathRec) (holdoff : Nat) : Bool := p.sq.on && !p.sq.forced && decide (holdoff ≤ p.sq.quiet)

/-- Squelch at a boundary: the quiet count, then the lift (R95). -/
def PathRec.squelchBoundary (holdoff : Nat) (p : PathRec) : PathRec :=
  if p.hasSink then
    let q := { p with sq := { p.sq with quiet := (if p.sq.srcSeenMf then 0 else satInc 15 p.sq.quiet),
                                        srcSeenMf := false } }
    if q.mayLift holdoff then { q with sq := { q.sq with on := false } } else q
  else p

/-- SQUELCH_LIFT (R95): the lift itself, where its three conditions hold. The row tests the quiet count as it stands,
and the boundary's update of the count is not its work (log 2: DESIGN CHOICE). -/
def execSquelchLift (h : Nat) (s : State) : Host.Outcome State Fault Refusal :=
  .next (s.modPath h (fun p =>
    if p.hasSink && p.mayLift s.cbl.holdoff then { p with sq := { p.sq with on := false } } else p))

/-! ### The frame start at CBL (R84, R87, R88) -/

/-- The role in which a path owns a group: the role of its first berth. -/
def State.planOf (s : State) (frame : Nat) (h : Nat) (p : PathRec) (c b : Nat) : List GroupPlan :=
  match s.owner c b with
  | some o =>
    if o.handle = h then
      [{ carrier := c, first := b, k := p.k, handle := some h, role := o.role, live := p.live,
         label := s.labelChar p frame }]
    else []
  | none => []

/-- The groups a path can own: its sink's, its move's and its undo's, without repetition (R47). -/
def PathRec.places (p : PathRec) : List (Nat × Nat) :=
  let sinkPlace := match p.sink with | some (.carrier c b) => [(c, b)] | _ => []
  let ofMove := fun (m : Option BerthMove) =>
    match m with | some m => [(m.oldC, m.oldB), (m.newC, m.newB)] | none => []
  (sinkPlace ++ ofMove p.bmove ++ ofMove p.undo).dedup

/-- The owned groups of a path, by its places. -/
def State.planPath (s : State) (frame h : Nat) (p : PathRec) : List GroupPlan :=
  if p.hasSink then p.places.flatMap (fun e => s.planOf frame h p e.1 e.2) else []

/-- CBL takes the owners, roles and liveness of every berth for the frame that begins (R84). -/
def State.takePlan (s : State) : State :=
  s.setCbl { s.cbl with plan := s.ptb.paths.flatMap (fun e => s.planPath s.ftm.frame e.1 e.2) }

/-- The places that are debtors no longer leave every entry, and an entry with no debtor leaves the queue (R86). -/
def keepDebtors (still : List Debtor) (q : List CarryEntry) : List CarryEntry :=
  (q.map (fun e => { e with debtors := e.debtors.filter (fun d => still.contains d) })).filter
    (fun e => !e.debtors.isEmpty)

/-- The roles a frame start brings: a group that is neither PRIMARY nor BRIDGE is a debtor no longer (R87). -/
def State.settleDebts (s : State) : State :=
  s.mapPaths (fun h p => { p with carry := keepDebtors (s.debtorsOf h p) p.carry })

end Sys2Proof.Machine
end

