-- ==== Sys2Proof/Machine/Fill.lean ====
section
/-! DEFINITION. Fill control: the elastic store and its stages (R61 to R70), the decision (R71, R72, R79, R81), slips
(R73, R74), the offset window (R75, R76), and their command rows. -/

namespace Sys2Proof.Machine

/-! ### The store (R61, R62) -/

/-- Store capacity by path size (R61). -/
def capacity (k : Nat) : Nat := if k = 1 then 64 else if k = 4 then 128 else 256

/-- The centre C (R61). -/
def centre (k : Nat) : Nat := capacity k / 2

/-- What ADD creates (R61, R62). -/
def Fil.create (k : Nat) : Fil :=
  { store := List.replicate (centre k) 0xFF, inStage := [], outStage := List.replicate (90 * k) 0xFF, outDec := .normal,
    dropNext := 0, slipPending := false, defectSeen := false, spacing := 255, lastDec := .normal, lastForced := false,
    wCount := 0, wSum := 0, wValid := true, offset := none, clamped := false, lastInvalid := false, slips := 0,
    forced := none, lastSteps := 0 }

/-- D = O - C. -/
def Fil.diff (k : Nat) (f : Fil) : Int := (f.store.length : Int) - (centre k : Int)

/-- One byte at the newest end; a full store drops it and slip pending becomes yes (R67). -/
def Fil.write (k : Nat) (b : Byte) (f : Fil) : Fil :=
  if f.store.length < capacity k then { f with store := f.store ++ [b] } else { f with slipPending := true }

def Fil.writeAll (k : Nat) (l : List Byte) (f : Fil) : Fil := l.foldl (fun f b => f.write k b) f

/-- A data byte that a client port delivers (R64); bytes that a preset dropped are not written (R68). -/
def Fil.deliver (k : Nat) (b : Byte) (f : Fil) : Fil :=
  if f.dropNext = 0 then f.write k b else { f with dropNext := f.dropNext - 1 }

/-- A burst of an incoming group: what the stage still holds is written at once, ahead of it (R65). -/
def Fil.burst (k : Nat) (l : List Byte) (f : Fil) : Fil :=
  { (f.writeAll k f.inStage) with inStage := l }

/-- One byte from the input stage to the store (R65). -/
def Fil.stageWrite (k : Nat) (f : Fil) : Fil :=
  match f.inStage with
  | [] => f
  | b :: r => { f with inStage := r }.write k b

/-- One byte from the oldest end to the output stage; an empty store gives 0x00 and slip pending (R69). -/
def Fil.readOne (f : Fil) : Fil :=
  match f.store with
  | [] => { f with outStage := f.outStage ++ [0x00], slipPending := true }
  | b :: r => { f with outStage := f.outStage ++ [b], store := r }

/-- The bytes that the path frame in progress has still to read (R68, R69). -/
def Fil.unread (k : Nat) (f : Fil) : Nat := frameBytes k f.outDec - f.outStage.length

def Fil.readMany (f : Fil) : Nat → Fil
  | 0 => f
  | n + 1 => f.readOne.readMany n

/-- The reads of the path frame that ends here are complete (R69; log 7: DEDUCED). -/
def Fil.finishReads (k : Nat) (f : Fil) : Fil := f.readMany (f.unread k)

/-- A capture with lead L presets the store (R68). A preset that changes the store makes the window invalid: one that
finds a full store has nothing to write, and one that drops only bytes to come counts as a change (log 20: DEDUCED). -/
def Fil.preset (c : FilConsts) (k lead : Nat) (f : Fil) : Fil :=
  let o : Int := f.store.length
  let x : Int := o + (min lead (90 * k) : Nat) - (f.unread k : Nat)
  let off : Int := x - (centre k : Int)
  if off > (c.h : Int) then
    { f with store := f.store.drop off.toNat, dropNext := off.toNat - f.store.length, wValid := false }
  else if off < -(c.h : Int) then
    { f with store := f.store ++ List.replicate (min (-off).toNat (capacity k - f.store.length)) 0xFF, dropNext := 0,
             wValid := f.wValid && decide (capacity k ≤ f.store.length) }
  else { f with dropNext := 0 }

/-! ### The offset window (R75, R76) -/

/-- The nearest integer to `n / d`, halfway values away from zero (R76). -/
def roundAway (n : Int) (d : Nat) : Int :=
  if 0 ≤ n then ((2 * n.natAbs + d) / (2 * d) : Nat) else -(((2 * n.natAbs + d) / (2 * d) : Nat) : Int)

/-- The end of a window (R76). -/
def Fil.windowEnd (k : Nat) (f : Fil) : Fil :=
  let q := roundAway (f.wSum * 10000) (720 * k)
  let g :=
    if f.wValid then
      if q > 32767 then { f with offset := some 32767, clamped := true, lastInvalid := false }
      else if q < -32767 then { f with offset := some (-32767), clamped := true, lastInvalid := false }
      else { f with offset := some q, clamped := false, lastInvalid := false }
    else { f with lastInvalid := true }
  { g with wSum := 0, wCount := 0, wValid := true }

/-- Step 7 of R71: the decision is accounted (R75). -/
def Fil.account (k : Nat) (recovered : Bool) (f : Fil) : Fil :=
  let sum := if f.lastForced then f.wSum else
    match f.lastDec with | .extra => f.wSum + 1 | .short => f.wSum - 1 | .normal => f.wSum
  let g := { f with
    wSum := sum, wCount := f.wCount + 1, defectSeen := false,
    wValid := f.wValid && !f.defectSeen && !recovered && !f.lastForced }
  if 8000 ≤ g.wCount then g.windowEnd k else g

/-! ### The decision (R71 to R73, R79, R81, R82) -/

/-- Recovery of a slip (R73): the store is set to its centre. -/
def Fil.recover (k : Nat) (f : Fil) : Fil :=
  { f with store := f.store.drop (f.store.length - centre k) ++ List.replicate (centre k - f.store.length) 0x00,
           slips := satInc 65535 f.slips, slipPending := false }

/-- The forced operation ends: last forced steps takes its steps (R82). -/
def Fil.endForced (f : Fil) : Fil :=
  match f.forced with
  | none => f
  | some o => { f with forced := none, lastSteps := o.steps }

/-- The ordinary rule (R72). -/
def Fil.ordinary (c : FilConsts) (k : Nat) (f : Fil) : Dec :=
  if f.spacing < c.n then .normal
  else if f.diff k > (c.h : Int) then .extra
  else if f.diff k < -(c.h : Int) then .short
  else .normal

/-- A decision: its code, whether it was forced, the fill context after it, and the completion it posts. -/
structure Choice where
  dec    : Dec
  forced : Bool
  fil    : Fil
  post   : Option Completion

/-- The operation goes on with one step taken (R79, R81). -/
def Forced.step (o : Forced) (d : Dir) : Forced := { o with steps := o.steps + 1, dir := some d }

def Dir.dec : Dir → Dec
  | .down => .extra | .up => .short

/-- A RECENTRE in progress (R79). A NORMAL below I is recorded as ordinary (R62 allows each; log 41: DESIGN CHOICE). -/
def Fil.recentre (c : FilConsts) (k : Nat) (o : Forced) (f : Fil) : Choice :=
  if f.spacing < c.i then { dec := .normal, forced := false, fil := f, post := none }
  else if -1 ≤ f.diff k ∧ f.diff k ≤ 1 then
    { dec := f.ordinary c k, forced := false, fil := f.endForced, post := some .recentred }
  else if o.steps < o.limit then
    let d := if f.diff k > 0 then Dir.down else Dir.up
    { dec := Dir.dec d, forced := true, fil := { f with forced := some (o.step d) }, post := none }
  else { dec := f.ordinary c k, forced := false, fil := f.endForced, post := some .recentreIncomplete }

/-- A NUDGE in progress (R81). A NORMAL below I is recorded as ordinary (R62 allows each; log 41: DESIGN CHOICE). -/
def Fil.nudge (c : FilConsts) (k : Nat) (o : Forced) (f : Fil) : Choice :=
  let d := o.dir.getD .down
  let beyond := match d with
    | .down => decide (f.store.length < 9)
    | .up => decide (capacity k - 8 < f.store.length + 1)
  if f.spacing < c.i then { dec := .normal, forced := false, fil := f, post := none }
  else if beyond then { dec := f.ordinary c k, forced := false, fil := f.endForced, post := some .nudgeLimit }
  else
    let g := { f with forced := some (o.step d) }
    if o.steps + 1 < o.limit then { dec := Dir.dec d, forced := true, fil := g, post := none }
    else { dec := Dir.dec d, forced := true, fil := g.endForced, post := some .nudged }

/-- Step 4 of R71. -/
def Fil.choose (c : FilConsts) (k : Nat) (f : Fil) : Choice :=
  match f.forced with
  | none => { dec := f.ordinary c k, forced := false, fil := f, post := none }
  | some o => if o.nudge then f.nudge c k o else f.recentre c k o

/-- The completion that a slip gives a forced operation (R73, R82). -/
def Forced.slipPost (o : Forced) : Completion := if o.nudge then .nudgeLimit else .recentreEnded .slip

/-- Steps 1 and 2 of R71: recovery, then the end of a forced operation whose source is lost. -/
def Fil.settle (k : Nat) (f : Fil) : Fil × Option Completion :=
  let (g, post) := if f.slipPending then ((f.recover k).endForced, f.forced.map Forced.slipPost) else (f, none)
  if g.defectSeen && g.forced.isSome then (g.endForced, some (.recentreEnded .sourceLost)) else (g, post)

/-- What a decision point gives: the new fill context, the content handed on, the completion posted, and whether a
slip was recovered. -/
structure Decided where
  fil     : Fil
  content : Content
  post    : Option Completion
  slipped : Bool

/-- The seven steps of R71. -/
def Fil.decide (c : FilConsts) (k : Nat) (f : Fil) : Decided :=
  let (g, post) := f.settle k
  let ch : Choice := ({ g with spacing := satInc 255 g.spacing } : Fil).choose c k
  let handed : Content := { code := Dec.code f.outDec, bytes := f.outStage }
  let next := { ch.fil with
    spacing := if ch.dec = Dec.normal then ch.fil.spacing else 0, lastDec := ch.dec, lastForced := ch.forced,
    outStage := [], outDec := ch.dec }
  { fil := next.account k f.slipPending, content := handed, post := if ch.post.isSome then ch.post else post,
    slipped := f.slipPending }

/-! ### Captures (R23, R68) -/

/-- CLP hands FIL a capture made at instant `t` for the path that a port sources. The preset uses the H that applies to
the path (R63). -/
def State.capture (s : State) (q t : Nat) : State :=
  match s.rxPath q with
  | none => s
  | some h => s.modPath h (fun p => { p with fil := p.fil.map (fun f => f.preset (s.filFor p) p.k (s.lead (s.txSize q) p t)) })

/-! ### Command rows -/

/-- Change the fill context of a path, where it has one. -/
def State.modFil (s : State) (h : Nat) (f : PathRec → Fil → Fil) : State :=
  s.modPath h (fun p => { p with fil := p.fil.map (f p) })

/-- HWY takes the content of a SOURCE path: MAINTENANCE where the source has been not delivering (R70, R111). A run
whose first cell has passed keeps what it had. -/
def State.handHighway (s : State) (h : Nat) (p : PathRec) (bad : Bool) (c : Content) : State :=
  let content : Content := if bad then { code := .maintenance, bytes := [] } else c
  if p.liveF then
    (s.modPath h (fun q => { q with hw := { q.hw with content := some content } })).setHwy
      { s.hwy with drives := s.hwy.drives.map (fun d =>
          if d.handle = h && !d.retired && !s.hwy.passed.getLsbD d.first then { d with content := some content } else d) }
  else s.modPath h (fun q => { q with hw := { q.hw with content := none } })

/-- The content goes to the block that carries the path (R70); a client side takes its entry at the same instant
(R86, R87). -/
def State.handOn (s : State) (h : Nat) (p : PathRec) (bad : Bool) (c : Content) : State :=
  match p.role with
  | .source => s.handHighway h p bad c
  | _ =>
    let s := s.carryJoin h c
    match p.sink with
    | some (.port q) => if s.txPath q = some h then s.clientTake q h else s
    | _ => s

/-- A decision point of a path with a local source (R71, R74). From the first after START on, the constants that START
gave apply to the path (R63). -/
def State.decisionPoint (s : State) (h : Nat) (p : PathRec) (f : Fil) : State :=
  let bad := f.defectSeen || s.notDelivering p
  let d := ({ f.finishReads p.k with defectSeen := bad } : Fil).decide s.fil p.k
  let s := s.setPath h { p with fil := some d.fil, slipSeen := p.slipSeen || d.slipped, decided := true,
                                filNew := p.filNew || s.cmd.started }
  let s := if d.slipped then s.event .fillSlip (.path h) else s
  let s := match d.post with | some c => s.post h c | none => s
  (s.handOn h p bad d.content).markPath h

/-- DECISION_POINT (R71). FIL works a path from the first frame start after its ADD (R61). -/
def execDecisionPoint (h : Nat) (s : State) : Host.Outcome State Fault Refusal :=
  match s.path h with
  | none => .next s
  | some p =>
    match p.fil with
    | none => .next s
    | some f => .next (if p.begun then s.decisionPoint h p f else s)

/-- WINDOW_END (R76): the 8000th decision of the window ends it. -/
def execWindowEnd (h : Nat) (s : State) : Host.Outcome State Fault Refusal :=
  .next (s.modFil h (fun p f => if 8000 ≤ f.wCount + 1 then f.windowEnd p.k else f))

/-- STORE_READ (R69): one read, where the path frame has still one to make. -/
def execStoreRead (h : Nat) (s : State) : Host.Outcome State Fault Refusal :=
  .next (s.modFil h (fun p f => if f.unread p.k = 0 then f else f.readOne))

/-- INPUT_STAGE_WRITE (R65). -/
def execInputStageWrite (h : Nat) (s : State) : Host.Outcome State Fault Refusal :=
  .next (s.modFil h (fun p f => f.stageWrite p.k))

/-- FILL_WRITE (R66): one byte of 0xFF, while the source is not delivering. -/
def execFillWrite (h : Nat) (s : State) : Host.Outcome State Fault Refusal :=
  .next (s.modPath h (fun p =>
    if s.notDelivering p then
      { p with srcBadSeen := true, fil := p.fil.map (fun f => { f with defectSeen := true }.write p.k 0xFF) }
    else p))

end Sys2Proof.Machine
end

