-- ==== Sys2Proof/Machine/Moves.lean ====
section
/-! DEFINITION. Moves of a path: outgoing berths (R146 to R150), highway cells at the source (R151 to R156), the cell
move of a sink (R154), and the messages and record changes that claims and moves share. -/

namespace Sys2Proof.Machine

/-! ### Record changes -/

def State.modHw (s : State) (h : Nat) (f : SrcHw → SrcHw) : State := s.modPath h (fun p => { p with hw := f p.hw })
def State.modSk (s : State) (h : Nat) (f : SnkHw → SnkHw) : State := s.modPath h (fun p => { p with sk := f p.sk })

/-- The run that starts at an optional first cell stops being the record's own. -/
def State.freeOpt (s : State) (x : Option Nat) (k : Nat) : State :=
  match x with
  | some x => s.freeRun x k
  | none => s

/-- A RELEASE for a run of the path, addressed to its remote station (R109). -/
def State.sendRelease (s : State) (p : PathRec) (x : Nat) (r : ReleaseReason) : State :=
  s.send (.release { sender := s.self, addressee := p.remote.getD 0, tag := p.tag, first := x, size := p.k,
                     move := false } r)

/-- A RELEASE for an optional run. -/
def State.releaseOpt (s : State) (p : PathRec) (x : Option Nat) (r : ReleaseReason) : State :=
  match x with
  | some x => s.sendRelease p x r
  | none => s

/-! ### Form a: outgoing berths (R148 to R150) -/

/-- A move of berths that has not ended fails: its context goes, and what must be put back is kept for the next
boundary (R150). -/
def State.failBerthMove (s : State) (h : Nat) (cause : MoveCause) : State :=
  match s.path h with
  | none => s
  | some p =>
    match p.bmove with
    | none => s
    | some m =>
      (s.setPath h { p with bmove := none, undo := if m.phase = .pending then none else some m }).post h
        (.moveFailed cause)

/-- The berth owner map is put back at the boundary (R150). -/
def State.undoBerths (h : Nat) (s : State) : State :=
  match s.path h with
  | none => s
  | some p =>
    match p.undo with
    | none => s
    | some m =>
      let s := s.clearOwner m.newC m.newB p.k
      if m.phase = .retiring then
        (s.setOwner m.oldC m.oldB p.k h .primary).setPath h
          { p with undo := none, sink := some (.carrier m.oldC m.oldB) }
      else s.setPath h { p with undo := none }

/-- The switch of a move of berths (R149). -/
def State.berthSwitch (s : State) (h : Nat) (p : PathRec) (m : BerthMove) : State :=
  ((s.setOwner m.oldC m.oldB p.k h .retiring).setOwner m.newC m.newB p.k h .primary).setPath h
    { p with sink := some (.carrier m.newC m.newB), bmove := some { m with phase := .retiring, guard := m.guard + 1 } }

/-- The move of berths is done (R149). A SINK record that returns from MOVING to RECEIVING goes on receiving, and its
counts stay (R138; log 22: DESIGN CHOICE). -/
def State.berthDone (s : State) (h : Nat) (p : PathRec) (m : BerthMove) : State :=
  (((s.clearOwner m.oldC m.oldB p.k).setPath h { p with bmove := none }).request h .moving p.liveState).post h .moveDone

/-- A boundary of a move of berths in BRIDGE or RETIRING (R149). -/
def State.stepBerths (h : Nat) (s : State) : State :=
  match s.path h with
  | none => s
  | some p =>
    match p.bmove with
    | none => s
    | some m =>
      match m.phase with
      | .pending => s
      | .bridge =>
        if s.cbl.guard ≤ m.guard + 1 then s.berthSwitch h p m
        else s.setPath h { p with bmove := some { m with guard := m.guard + 1 } }
      | .retiring => s.berthDone h p m

/-- The first boundary of a move of berths (R148). A SINK record whose move fails keeps its counts (R138; log 22: DESIGN
CHOICE). -/
def State.beginBerths (h : Nat) (s : State) : State :=
  match s.path h with
  | none => s
  | some p =>
    match p.bmove with
    | none => s
    | some m =>
      if m.phase = .pending then
        if s.anyOwner m.newC m.newB p.k (fun o => o.handle != h) then
          ((s.setPath h { p with bmove := none }).request h .moving p.liveState).post h (.moveFailed .endpointBusy)
        else
          (s.setOwner m.newC m.newB p.k h .bridge).setPath h
            { p with bmove := some { m with phase := .bridge, guard := 0 } }
      else s

/-- BERTH_MOVE_SWITCH (R149): the boundary at which the guard count reaches G. -/
def execBerthMoveSwitch (h : Nat) (s : State) : Host.Outcome State Fault Refusal :=
  .next (
    match s.path h with
    | none => s
    | some p =>
      match p.bmove with
      | none => s
      | some m => if m.phase = .bridge ∧ s.cbl.guard ≤ m.guard + 1 then s.berthSwitch h p m else s)

/-! ### Form b at the source (R151 to R156) -/

/-- A move of cells fails: its context goes and the record is requested back to CARRYING (R152). -/
def State.failCellMove (s : State) (h : Nat) (cause : MoveCause) : State :=
  ((s.modHw h (fun w => { w with move := none })).request h .moving .carrying).post h (.moveFailed cause)

/-- The new run of a move of cells, where the record has one. -/
def PathRec.newRun (p : PathRec) : Option Nat := p.hw.move.bind (·.new)

/-- The new run of a move is given up: a queued CLAIM is removed, and any other claimed or held run is released (R52,
R155). -/
def State.dropNewRun (s : State) (h : Nat) (p : PathRec) (r : ReleaseReason) : State :=
  let queued := s.claimQueued h
  let s := if queued then s.unsendClaim p.tag else s.releaseOpt p p.newRun r
  (s.idleMonitors h).freeOpt p.newRun p.k

/-- A move of cells is abandoned with RELEASE WITHDRAWN for its new run, and MOVE_FAILED is posted (R155, R156). The
state is the caller's to change. -/
def State.abandonCellMove (s : State) (h : Nat) (p : PathRec) (cause : MoveCause) : State :=
  ((s.dropNewRun h p .withdrawn).modHw h (fun w => { w with move := none })).post h (.moveFailed cause)

/-- The switch at the source (R153): from the frame that starts now, the new run is the decision point. -/
def State.cellSwitch (s : State) (h : Nat) (m : CellMove) : State :=
  s.modHw h (fun w => { w with move := some { m with phase := .retiring, guard := m.guard + 1 } })

/-- The move of cells is done (R153): the clean count restarts with the record's CARRYING (R137). -/
def State.cellDone (s : State) (h : Nat) (p : PathRec) (m : CellMove) : State :=
  let s := (s.freeRun m.old p.k).sendRelease p m.old .moved
  let s := s.modHw h (fun w => { w with cells := m.new, move := none, clean := 0 })
  (s.request h .moving .carrying).post h .moveDone

/-- A boundary of a move of cells in ACCEPTED, BRIDGE or RETIRING (R152, R153). -/
def State.stepCells (h : Nat) (s : State) : State :=
  match s.path h with
  | none => s
  | some p =>
    match p.hw.move with
    | none => s
    | some m =>
      match m.phase with
      | .accepted =>
        let s := match m.new with | some x => s.holdRun x p.k | none => s
        s.modHw h (fun w => { w with move := some { m with phase := .bridge, guard := 0 } })
      | .bridge =>
        if s.cbl.guard ≤ m.guard + 1 then s.cellSwitch h m
        else s.modHw h (fun w => { w with move := some { m with guard := m.guard + 1 } })
      | .retiring => s.cellDone h p m
      | .seeking => s
      | .claimed => s

/-- CELL_MOVE_SWITCH (R153): the boundary at which the guard count reaches G. -/
def execCellMoveSwitch (h : Nat) (s : State) : Host.Outcome State Fault Refusal :=
  .next (
    match s.path h with
    | none => s
    | some p =>
      match p.hw.move with
      | none => s
      | some m => if m.phase = .bridge ∧ s.cbl.guard ≤ m.guard + 1 then s.cellSwitch h m else s)

/-! ### Form b at the sink (R154) -/

/-- The counts of a sink become 0 (R131, R138, R154). -/
def SnkHw.zeroed (k : SnkHw) : SnkHw := { k with missing := [], check := 0, loss := 0 }

/-- The cell move of a sink is cancelled; a queued move ACCEPT is removed (R154). -/
def State.cancelSinkMove (s : State) (h : Nat) (p : PathRec) : State :=
  match p.sk.move with
  | none => s
  | some m =>
    let s := if m.status = .queued then s.unsendAccept p.tag true else s
    s.modSk h (fun k => { k with move := none })

/-- The sink's switch (R154). -/
def State.sinkSwitch (s : State) (h : Nat) (m : SinkMove) : State :=
  s.modSk h (fun k => { k.zeroed with cells := some m.new, move := none })

/-- A boundary of a sink's cell move (R154). -/
def State.stepSinkMove (h : Nat) (s : State) : State :=
  match s.path h with
  | none => s
  | some p =>
    match p.sk.move with
    | none => s
    | some m =>
      match m.status with
      | .queued => s
      | .sent => s.modSk h (fun k => { k with move := some { m with status := .bridging, guard := 0 } })
      | .bridging =>
        if s.cbl.guard ≤ m.guard + 1 then s.sinkSwitch h m
        else s.modSk h (fun k => { k with move := some { m with guard := m.guard + 1 } })

/-- SINK_CELL_MOVE_SWITCH (R154): the boundary at which the guard count reaches G. -/
def execSinkCellMoveSwitch (h : Nat) (s : State) : Host.Outcome State Fault Refusal :=
  .next (
    match s.path h with
    | none => s
    | some p =>
      match p.sk.move with
      | none => s
      | some m => if m.status = .bridging ∧ s.cbl.guard ≤ m.guard + 1 then s.sinkSwitch h m else s)

/-! ### Sinks that stop receiving (R131, R132, R141, R144) -/

/-- A SINK record leaves ACCEPTED, RECEIVING or MOVING for LISTENING: a move of its berths fails with the cause given,
its cell move is cancelled, a queued ACCEPT is removed, and its highway fields are cleared. -/
def State.sinkListens (s : State) (h : Nat) (cause : MoveCause) : State :=
  let s := s.failBerthMove h cause
  match s.path h with
  | none => s
  | some p =>
    let s := s.cancelSinkMove h p
    let s := if p.sk.status = some .queued then s.unsendAccept p.tag false else s
    let s := s.modSk h (fun k => { k.zeroed with cells := none, status := none, watch := none })
    s.request h p.state .listening

end Sys2Proof.Machine
end

