-- ==== Sys2Proof/Machine/Claims.lean ====
section
/-! DEFINITION. Claims and answers: withdrawal (R126), the sink's answer (R130 to R132), the claimant (R128, R133,
R134), SINK_GONE (R143), the cell map (R115 to R119), heard messages (R110), MUTE (R102, R144), and their rows. -/

namespace Sys2Proof.Machine

/-! ### The cell map (R115 to R119) -/

/-- A heard CLAIM on one entry (R115). -/
def CellEntry.claimed (holder tag : Nat) : CellEntry → CellEntry
  | .free => .reserved holder tag 0 false false
  | .reserved _ _ _ _ _ => .reserved holder tag 0 false false
  | e => e

/-- A heard ACCEPT on one entry (R116). -/
def CellEntry.accepted (holder tag : Nat) : CellEntry → CellEntry
  | .free => .reserved holder tag 0 true false
  | .reserved h t _ _ rel => .reserved holder tag 0 true (rel && h == holder && t == tag)
  | e => e

/-- A heard REFUSE on one entry (R116). -/
def CellEntry.refused (holder tag : Nat) : CellEntry → CellEntry
  | .reserved h t age acc rel => if h = holder ∧ t = tag then .free else .reserved h t age acc rel
  | e => e

/-- A heard RELEASE on one entry (R117). -/
def CellEntry.released (holder tag : Nat) : CellEntry → CellEntry
  | .reserved h t age acc rel => .reserved h t age acc (rel || (h == holder && t == tag))
  | .held h t silent rel => .held h t silent (rel || (h == holder && t == tag))
  | e => e

/-- One entry at a boundary (R118). -/
def CellEntry.boundary : CellEntry → CellEntry
  | .reserved _ _ _ _ true => .free
  | .reserved h t _ true false => .held h t 0 false
  | .reserved h t age false false => if 2 ≤ age + 1 then .free else .reserved h t (age + 1) false false
  | .held _ _ _ true => .free
  | e => e

/-- A valid header from station `st` with tag `t`, on one entry (R119). -/
def CellEntry.seen (st t : Nat) : CellEntry → CellEntry
  | .reserved h u _ _ rel => if h = st ∧ u = t then .held st t 0 rel else .held st t 0 false
  | .held h u _ rel => if h = st ∧ u = t then .held st t 0 rel else .held st t 0 false
  | .free => .held st t 0 false
  | e => e

/-- A silent cell on one entry (R119). -/
def CellEntry.silent : CellEntry → CellEntry
  | .held h t n rel => if 32 ≤ n + 1 then .free else .held h t (n + 1) rel
  | e => e

/-- The holder of the cells that a message names (R109). -/
def holderOf : Msg → Nat
  | .claim b => b.sender
  | .accept b => b.addressee
  | .refuse b _ => b.addressee
  | .release b r => if r = .sinkGone then b.addressee else b.sender

/-- What a heard message does to one entry of its run. -/
def Msg.onEntry (m : Msg) (h t : Nat) : CellEntry → CellEntry :=
  match m with
  | .claim _ => CellEntry.claimed h t
  | .accept _ => CellEntry.accepted h t
  | .refuse _ _ => CellEntry.refused h t
  | .release _ _ => CellEntry.released h t

/-- A heard or sent message is applied to the cell map (R110, R115 to R117). A RELEASE SINK_GONE about this station's
own run changes no entry (R117). -/
def State.applyMap (s : State) (m : Msg) : State :=
  let own : Bool := match m with | .release b r => r == .sinkGone && s.isOwn b.addressee | _ => false
  if own then s
  else s.onRun m.body.first m.body.size (Msg.onEntry m (holderOf m) m.body.tag)

/-! ### Withdrawal of a queued CLAIM (R126) -/

/-- The run that the record has claimed and not yet been given: of the record, or of its move. -/
def PathRec.claimedRun (p : PathRec) : Option Nat :=
  match p.state with
  | .claiming => p.hw.cells
  | .moving => match p.hw.move with | some m => if m.phase = .claimed then m.new else none | none => none
  | _ => none

/-- The queued CLAIM of a record is withdrawn (R126, R151). -/
def State.withdraw (s : State) (h : Nat) (p : PathRec) (run : Nat) : State :=
  let s := (((s.unsendClaim p.tag).idleMonitors h).freeRun run p.k)
  if p.state = .claiming then (s.modHw h (fun w => { w with cells := none })).request h .claiming .waiting
  else s.modHw h (fun w => { w with move := w.move.map (fun m => { m with new := none, phase := .seeking }) })

/-- Another station is heard or seen on a run: every queued CLAIM whose run it meets is withdrawn (R126). -/
def State.withdrawMeeting (s : State) (first size : Nat) : State :=
  s.forPaths (fun h s =>
    match s.path h with
    | none => s
    | some p =>
      match p.claimedRun with
      | none => s
      | some run => if s.claimQueued h && runsMeet run p.k first size then s.withdraw h p run else s)

/-! ### The sink's answer (R130, R131) -/

/-- The reason of the REFUSE that R130's table gives for a found record, rows 2 to 8; none for row 9. Row 6 reads
the raw CELL_LOSS of the last whole frame (R140; log 38: DESIGN CHOICE). -/
def refusal (p : PathRec) (b : MsgBody) (conflict : Bool) : Option RefuseReason :=
  if p.k ≠ b.size then some .sizeMismatch
  else if p.state = .defined then some .notReady
  else if b.move ∧ (p.state = .listening ∨ p.state = .accepted) then some .notReady
  else if p.state = .accepted then some .sinkBusy
  else if !b.move && p.receives && !p.sk.rawLoss then some .sinkBusy
  else if b.move && p.receives && p.sk.move.isSome then some .sinkBusy
  else if conflict then some .cellConflict
  else none

/-- An entry that conflicts with a CLAIM (R130, row 8). -/
def CellEntry.conflicts (own holder tag : Nat) : CellEntry → Bool
  | .free => false
  | .reserved h t _ _ _ => !(h == holder && t == tag)
  | .held h t _ _ => !(h == holder && t == tag)
  | .ownReserved _ t => !(own == holder && t == tag)
  | .ownHeld _ t => !(own == holder && t == tag)

def State.conflict (s : State) (b : MsgBody) : Bool :=
  (List.range b.size).any (fun i => (s.entry (b.first + i)).conflicts s.self b.sender b.tag)

/-- The fields of an answer to a CLAIM (R130). -/
def answerTo (s : State) (b : MsgBody) : MsgBody := { b with sender := s.self, addressee := b.sender }

/-- The sink accepts a CLAIM (R131, R154). -/
def State.acceptClaim (s : State) (h : Nat) (b : MsgBody) : State :=
  if b.move then
    (s.send (.accept (answerTo s b))).modSk h (fun k =>
      { k with move := some { new := b.first, status := .queued, guard := 0 } })
  else
    let s' := s.failBerthMove h .lost
    match s'.path h with
    | none => s'
    | some p =>
      let s' := (s'.cancelSinkMove h p).send (.accept (answerTo s b))
      (s'.modSk h (fun k =>
        { k.zeroed with cells := some b.first, status := some .queued, watch := none })).request h p.state .accepted

/-- A CLAIM addressed to the own station is answered while the station is WARMING or JOINED, if the answer can be
queued (R130). `conflict` is read before the CLAIM was applied to the map. -/
def State.answerClaim (s : State) (b : MsgBody) (conflict : Bool) : State :=
  if s.hasRoom then
    match s.findTag .sink b.tag with
    | none => s.send (.refuse (answerTo s b) .noPath)
    | some (h, p) =>
      if p.remote ≠ some b.sender then s.send (.refuse (answerTo s b) .noPath)
      else
        match refusal p b conflict with
        | some r => s.send (.refuse (answerTo s b) r)
        | none => s.acceptClaim h b
  else s

/-- A heard CLAIM (R110, R115, R126, R130). Where it also withdraws a queued CLAIM of this station, the sink reads the
entries that the withdrawal has freed (R126; log 32: DEDUCED). -/
def State.hearClaim (s : State) (b : MsgBody) : State :=
  let s := if s.isOwn b.sender then s else s.withdrawMeeting b.first b.size
  let conflict := s.conflict b
  let s := s.applyMap (.claim b)
  if s.isOwn b.addressee then s.answerClaim b conflict else s

/-! ### The claimant (R128, R133, R134, R152) -/

/-- A RUNNING monitor matches an answer (R128). -/
def Monitor.matches (b : MsgBody) : Monitor → Bool
  | .running m _ => m.tag == b.tag && m.first == b.first && m.k == b.size && m.addressee == b.sender
  | _ => false

def State.matchAnswer (s : State) (b : MsgBody) : Option Nat :=
  (s.hwy.mons.find? (fun m => m.matches b)).bind (fun m => m.info.map (·.handle))

/-- A matched ACCEPT (R133, R152). One whose move flag is not that of the claim ends the monitor (R128) and leaves the
record (log 37: DESIGN CHOICE). -/
def State.takeAccept (s : State) (h : Nat) (move : Bool) : State :=
  let s := s.idleMonitors h
  if move then
    s.modPath h (fun p =>
      match p.hw.move with
      | some m => if m.phase = .claimed then { p with hw := { p.hw with move := some { m with phase := .accepted } } } else p
      | none => p)
  else
    s.modPath h (fun p => if p.state = .claiming then { p with hw := { p.hw with acceptHeard := true } } else p)

/-- A RELEASE for the same tag and run waits in the send queue (R128). -/
def State.releaseQueued (s : State) (b : MsgBody) : Bool :=
  s.hwy.sendQ.any (fun q =>
    match q.msg with
    | .release c _ => c.tag == b.tag && c.first == b.first && c.size == b.size
    | _ => false)

/-- A record of this station holds the run as HELD own with the tag (R128). -/
def State.holdsRun (s : State) (b : MsgBody) : Bool :=
  (List.range b.size).all (fun i => match s.entry (b.first + i) with | .ownHeld _ t => t == b.tag | _ => false)

/-- A late ACCEPT is answered with RELEASE WITHDRAWN (R128). -/
def State.lateAccept (s : State) (b : MsgBody) : State :=
  if s.releaseQueued b || s.holdsRun b then s
  else s.send (.release { b with sender := s.self, addressee := b.sender, move := false } .withdrawn)

/-- A heard ACCEPT (R110, R116, R126, R128). -/
def State.hearAccept (s : State) (b : MsgBody) : State :=
  let s := if s.isOwn b.addressee then s else s.withdrawMeeting b.first b.size
  let s :=
    if s.isOwn b.addressee then
      match s.matchAnswer b with
      | some h => s.takeAccept h b.move
      | none => s.lateAccept b
    else s
  s.applyMap (.accept b)

/-- A claim is refused for good (R134). -/
def refusedForGood : RefuseReason → Bool
  | .noPath => true | .sizeMismatch => true | _ => false

/-- A matched REFUSE (R134, R152). One whose move flag is not that of the claim ends the monitor (R128) and leaves the
record (log 37: DESIGN CHOICE). -/
def State.takeRefuse (s : State) (h : Nat) (move : Bool) (r : RefuseReason) : State :=
  let s := s.idleMonitors h
  match s.path h with
  | none => s
  | some p =>
    if move then
      match p.hw.move with
      | none => s
      | some m =>
        ((s.freeOpt m.new p.k).modHw h (fun w => { w with refusal := some (.reason r) })).failCellMove h .refused
    else if p.state = .claiming then
      let s := (s.freeOpt p.hw.cells p.k).modHw h (fun w =>
        { w with cells := none, refusal := some (.reason r),
                 backoff := if refusedForGood r then w.backoff else some ((s.self + 1) * 2) })
      (s.request h .claiming (if refusedForGood r then .blocked else .waiting)).post h (.claimRefused r)
    else s

/-- A heard REFUSE (R110, R116, R128). -/
def State.hearRefuse (s : State) (b : MsgBody) (r : RefuseReason) : State :=
  let s :=
    if s.isOwn b.addressee then
      match s.matchAnswer b with
      | some h => s.takeRefuse h b.move r
      | none => s
    else s
  s.applyMap (.refuse b r)

/-! ### RELEASE (R132, R143, R154, R156) -/

/-- A heard RELEASE from the remote station of a SINK record (R132, R154). -/
def State.releaseSink (s : State) (h : Nat) (p : PathRec) (b : MsgBody) : State :=
  if p.sk.cells = some b.first ∧ p.k = b.size then
    match p.state with
    | .accepted => s.sinkListens h .lost
    | .receiving => (s.sinkListens h .lost).post h .sinkLost
    | .moving => (s.sinkListens h .lost).post h .sinkLost
    | _ => s
  else
    match p.sk.move with
    | some m => if m.new = b.first ∧ p.k = b.size then s.cancelSinkMove h p else s
    | none => s

/-- The source loses its sink (R143): the run is freed and the record waits out a backoff. -/
def State.sourceReleased (s : State) (h : Nat) (p : PathRec) (found : PState) : State :=
  let s := (s.freeOpt p.hw.cells p.k).modHw h (fun w =>
    { w with cells := none, acceptHeard := false, clean := 0, cleanRun := false,
             backoff := some ((s.self + 1) * 2) })
  s.request h found .waiting

/-- A RELEASE SINK_GONE from the remote station of a SOURCE record (R143, R156). -/
def State.sinkGone (s : State) (h : Nat) (p : PathRec) (b : MsgBody) : State :=
  if p.hw.cells = some b.first ∧ p.k = b.size then
    match p.state with
    | .carrying => s.sourceReleased h p .carrying
    | .claiming => if s.claimQueued h then s else (s.idleMonitors h).sourceReleased h p .claiming
    | .moving => (s.abandonCellMove h p .lost).sourceReleased h p .moving
    | _ => s
  else
    match p.hw.move with
    | some m =>
      if m.new = some b.first ∧ p.k = b.size ∧ (m.phase = .accepted ∨ m.phase = .bridge ∨ m.phase = .retiring) then
        (((s.freeOpt m.new p.k).modHw h (fun w => { w with move := none })).post h (.moveFailed .lost)).sourceReleased
          h p .moving
      else s
    | none => s

/-- A heard RELEASE (R110, R117, R132, R143). -/
def State.hearRelease (s : State) (b : MsgBody) (r : ReleaseReason) : State :=
  let s := s.applyMap (.release b r)
  if s.isOwn b.addressee then
    match s.findTag (if r = .sinkGone then .source else .sink) b.tag with
    | none => s
    | some (h, p) =>
      if p.remote = some b.sender then (if r = .sinkGone then s.sinkGone h p b else s.releaseSink h p b) else s
  else s

/-! ### Heard and failed messages (R110) -/

/-- A message that passes is heard (R110). -/
def State.hear (s : State) : Msg → State
  | .claim b => s.hearClaim b
  | .accept b => s.hearAccept b
  | .refuse b r => s.hearRefuse b r
  | .release b r => s.hearRelease b r

/-- A burst has failed (R110). -/
def State.failMessage (s : State) : State :=
  let raised := s.hwy.msgRaised
  let s := s.setHwy { s.hwy with msgCheck := satInc 65535 s.hwy.msgCheck, msgRaised := true }
  if raised then s else s.event .messageCheck .station

/-- A message of the other stations: heard where it passes R110, failed otherwise. -/
def State.hearOrFail (s : State) (m : Msg) : State := if m.passes then s.hear m else s.failMessage

/-- CLAIM (R115, R126, R130, R131, R154). -/
def execClaim (m : MsgBody) (s : State) : Host.Outcome State Fault Refusal := .next (s.hearOrFail (.claim m))

/-- ACCEPT (R116, R126, R128, R133, R152). -/
def execAccept (m : MsgBody) (s : State) : Host.Outcome State Fault Refusal := .next (s.hearOrFail (.accept m))

/-- REFUSE (R116, R128, R134, R152). -/
def execRefuse (m : MsgBody) (r : RefuseReason) (s : State) : Host.Outcome State Fault Refusal :=
  .next (s.hearOrFail (.refuse m r))

/-- RELEASE (R117, R132, R143, R154, R156). -/
def execRelease (m : MsgBody) (r : ReleaseReason) (s : State) : Host.Outcome State Fault Refusal :=
  .next (s.hearOrFail (.release m r))

/-! ### MUTE and its end (R102, R103, R144) -/

/-- What MUTE does to one record (R102, R144, R150, R156). -/
def State.mutePath (h : Nat) (s : State) : State :=
  match s.path h with
  | none => s
  | some p =>
    match p.role with
    | .loc => s
    | .source =>
      match p.state with
      | .claiming | .carrying | .collided | .moving =>
        let s := (s.freeOpt p.hw.cells p.k).freeOpt p.newRun p.k
        let s := s.modHw h (fun w =>
          { w with cells := none, acceptHeard := false, clean := 0, cleanRun := false, move := none })
        let s := s.request h p.state .waiting
        if p.hw.move.isSome then s.post h (.moveFailed .mute) else s
      | _ => s
    | .sink =>
      match p.state with
      | .accepted | .receiving | .moving => s.sinkListens h .mute
      | _ => s.modSk h (fun k => { k with watch := none })

/-- A MUTE request (R99, R102). -/
def State.mute (s : State) : State :=
  let s := s.setHwy { s.hwy with doubt := true }
  if s.mayCreate then
    (s.setHwy { s.hwy with station := .mute, drives := [], sendQ := [], mons := [.idle, .idle] }).forPaths
      State.mutePath
  else s

/-- A timing-restored indication (R99, R103). -/
def State.timingRestored (s : State) : State :=
  if s.hwy.station = .mute then s.setHwy { s.hwy with doubt := false, station := .warming, warm := 0 }
  else s.setHwy { s.hwy with doubt := false }

end Sys2Proof.Machine
end

