-- ==== Sys2Proof/Machine/Highway.lean ====
section
/-! DEFINITION. The highway: control bursts (R104 to R108), cells (R111 to R113), collisions (R135, R136, R155), the
sink's view of cells (R138 to R142), and their rows. -/

namespace Sys2Proof.Machine

/-! ### The open-drain line (R104, R112) -/

/-- What the line carries while a station drives `own`, the others drive `others` (1 where none drives) and noise
flips the bits of `noise`: the station drives up to the first bit that reads back differently. -/
def driveLine {n : Nat} (own others noise : BitVec n) : BitVec n :=
  let driven := (own &&& others) ^^^ noise
  let heard := others ^^^ noise
  let diff := driven ^^^ own
  if diff = 0 then driven
  else
    let after : BitVec n := BitVec.ofNat n (2 ^ Nat.log2 diff.toNat - 1)
    (driven &&& ~~~after) ||| (heard &&& after)

/-! ### Control bursts (R104 to R106) -/

/-- The station's state lets it send the message (R101). -/
def State.maySend (s : State) (m : Msg) : Bool :=
  s.hwy.station == .joined || (s.hwy.station == .warming && !(m.kindCode == 4))

/-- The message with which the station contends for a burst, if it does (R105). -/
def State.contender (s : State) : Option Msg :=
  match s.hwy.sendQ with
  | [] => none
  | q :: _ => if !s.hwy.yielding && s.maySend q.msg then some q.msg else none

/-- The monitor of a sent CLAIM starts running (R127). -/
def Monitor.start (t : Nat) (b : MsgBody) : Monitor → Monitor
  | .bound m => if m.tag = b.tag ∧ m.first = b.first then .running m t else .bound m
  | m => m

/-- The move ACCEPT of a sink's cell move has won a burst (R154). -/
def SinkMove.sent (m : SinkMove) : SinkMove := if m.status = .queued then { m with status := .sent } else m

/-- A sent ACCEPT: the accept status of its record, or its cell move, becomes sent (R131, R154). -/
def PathRec.acceptSent (b : MsgBody) (p : PathRec) : PathRec :=
  if p.role = .sink ∧ p.tag = b.tag then
    if b.move then { p with sk := { p.sk with move := p.sk.move.map SinkMove.sent } }
    else { p with sk := { p.sk with status := p.sk.status.map (fun _ => AcceptStatus.sent) } }
  else p

/-- The station has won a burst (R104, R105, R110). -/
def State.winBurst (s : State) (m : Msg) : State :=
  let s := (s.setHwy { s.hwy with sendQ := s.hwy.sendQ.drop 1, yielding := true }).applyMap m
  match m with
  | .claim b => s.setHwy { s.hwy with mons := s.hwy.mons.map (Monitor.start s.hwy.timeout b) }
  | .accept b => s.mapPaths (fun _ p => p.acceptSent b)
  | _ => s

/-- The station reads a burst as a listener (R110). -/
def State.listenBurst (s : State) (line : BitVec 51) : State :=
  if line = BitVec.allOnes 51 then s
  else
    match decodeMsg line with
    | some m => s.hear m
    | none => s.failMessage

/-- One control burst (R104, R105, R110). -/
def State.burst (s : State) (others noise : BitVec 51) : State :=
  match s.contender with
  | none =>
    let line := others ^^^ noise
    (s.setHwy { s.hwy with yielding := false, burstLine := line }).listenBurst line
  | some m =>
    let line := driveLine (encodeMsg m) others noise
    let s := s.setHwy { s.hwy with burstLine := line }
    if line = encodeMsg m then s.winBurst m else s.listenBurst line

/-- CONTROL_BURST (R104, R105, R110). -/
def execControlBurst (others noise : BitVec 51) (s : State) : Host.Outcome State Fault Refusal :=
  .next (s.burst others noise)

/-! ### Answers that are too old (R108) -/

/-- An ACCEPT or REFUSE that has waited for 16 frame starts. -/
def QueuedMsg.stale (q : QueuedMsg) : Bool :=
  match q.msg with
  | .accept _ => decide (16 ≤ q.age)
  | .refuse _ _ => decide (16 ≤ q.age)
  | _ => false

/-- What a dropped ACCEPT does to its record (R108, R131, R154). -/
def State.answerDropped (s : State) (m : Msg) : State :=
  match m with
  | .accept b =>
    match s.findTag .sink b.tag with
    | none => s
    | some (h, p) =>
      if b.move then s.modSk h (fun k => { k with move := none })
      else if p.state = .accepted then
        (s.modSk h (fun k => { k with status := none, cells := none })).request h .accepted .listening
      else s
  | _ => s

/-- Drop every stale answer (R108). -/
def State.dropStale (s : State) : State :=
  let stale := s.hwy.sendQ.filter QueuedMsg.stale
  stale.foldl (fun s q => s.answerDropped q.msg)
    (s.setHwy { s.hwy with sendQ := s.hwy.sendQ.filter (fun q => !q.stale) })

/-- A frame start ages the queue, then drops what is stale (R107, R108). -/
def State.ageQueue (s : State) : State :=
  (s.setHwy { s.hwy with sendQ := s.hwy.sendQ.map (fun q => { q with age := q.age + 1 }) }).dropStale

/-- ANSWER_DROP (R108): the frame start at which an answer is 16 frame starts old. -/
def execAnswerDrop (s : State) : Host.Outcome State Fault Refusal :=
  let late := fun (q : QueuedMsg) => ({ q with age := q.age + 1 } : QueuedMsg).stale
  .next ((s.hwy.sendQ.filter late).foldl (fun s q => s.answerDropped q.msg)
    (s.setHwy { s.hwy with sendQ := s.hwy.sendQ.filter (fun q => !late q) }))

/-! ### Collisions (R112, R135, R136, R155) -/

/-- A collision in a cell of the run that a record in CARRYING holds (R135). -/
def State.collideCarrying (s : State) (h : Nat) (p : PathRec) (found : PState) : State :=
  let a := satInc 4 p.hw.attempt
  let s := (s.releaseOpt p p.hw.cells .collision).freeOpt p.hw.cells p.k
  let s := s.modHw h (fun w =>
    { w with attempt := a, clean := 0, cleanRun := false, cells := none,
             backoff := if a < 4 then some ((s.self + 1) * 2 ^ (a - 1)) else w.backoff })
  if a < 4 then s.request h found .collided else (s.request h found .stranded).post h .stranded

/-- A cell lies in a run. -/
def inRun (x k : Nat) (run : Option Nat) : Bool :=
  match run with
  | some r => decide (r ≤ x) && decide (x < r + k)
  | none => false

/-- A collision in a cell of the new run of a move (R155). -/
def State.collideNew (s : State) (h : Nat) (p : PathRec) : State :=
  let s := (s.freeOpt p.newRun p.k).releaseOpt p p.newRun .collision
  (s.modHw h (fun w => { w with cleanRun := false })).failCellMove h .collision

/-- The collision rule (R135, R136, R155) for a run driven under a handle and tag. -/
def State.collide (s : State) (h tag x : Nat) : State :=
  let s := s.setHwy { s.hwy with drives := s.hwy.drives.filter (fun d => !(d.handle == h)) }
  match s.path h with
  | none => s
  | some p =>
    if p.tag ≠ tag then s
    else
      match p.state with
      | .carrying => if inRun x p.k p.hw.cells then s.collideCarrying h p .carrying else s
      | .moving =>
        if inRun x p.k p.newRun then s.collideNew h p
        else if inRun x p.k p.hw.cells then (s.abandonCellMove h p .collision).collideCarrying h p .moving
        else s
      | _ => s

/-! ### Driven cells (R111, R112) -/

/-- What a driven run carries (R111, R153). -/
def Drive.carried (d : Drive) : Content :=
  match d.retired, d.content with
  | false, some c => if c.code = .idle then { code := .maintenance, bytes := [] } else c
  | _, _ => { code := .maintenance, bytes := [] }

/-- The header of the cell with index `i` of a driven run (R111, R15). -/
def Drive.header (own : Nat) (d : Drive) (i : Nat) : Header :=
  { station := own, tag := d.tag, index := i, code := codeAt d.carried.code i, label := if i = 0 then d.label else 0 }

/-- HWY drives a cell and reads its header back (R111, R112). -/
def State.driveCell (s : State) (d : Drive) (x : Nat) (others noise : BitVec 42) : State :=
  let i := x - d.first
  let own := encodeHeader (d.header s.self i)
  let line := driveLine own others noise
  let out : CellOut := { cell := x, header := line, payload := positions d.carried.code d.carried.bytes i }
  if line = own then s.setHwy { s.hwy with cellOut := some out }
  else (s.setHwy { s.hwy with cellOut := some { out with payload := [] } }).collide d.handle d.tag x

/-! ### Cells that are seen (R113, R119, R138, R142) -/

/-- How a sink classes a cell of its run (R138). -/
inductive CellClass where
  | good (c : RxCell)
  | errored
  | missing

/-- The class of the cell with index `i` of a sink's run (R138). -/
def classify (p : PathRec) (i : Nat) (line : BitVec 42) (payload : List Byte) : CellClass :=
  match decodeHeader line with
  | some hd =>
    if some hd.station = p.remote ∧ hd.tag = p.tag then
      if hd.index = i then .good { code := hd.code, label := hd.label, payload := payload } else .errored
    else .missing
  | none => if line = BitVec.allOnes 42 then .missing else .errored

/-- A cell missing once more (R138). -/
def SnkHw.miss (i : Nat) (k : SnkHw) : SnkHw :=
  { k with missing := Sparse.put 0 k.missing i (satInc 4 (Sparse.get 0 k.missing i)) }

/-- A sink examines a cell of the run it copies in this frame (R138, R139, R140). The counts are the record's while it
receives that run. -/
def PathRec.examine (x : Nat) (line : BitVec 42) (payload : List Byte) (p : PathRec) : PathRec :=
  match p.sk.copy with
  | none => p
  | some r =>
    if r ≤ x ∧ x < r + p.k then
      let i := x - r
      let counts := p.receives && p.sk.cells == some r
      match classify p i line payload with
      | .good c =>
        let maint := p.sk.maintSeen || c.code == .maintenance || c.code == .idle
        let missing := if counts then Sparse.put 0 p.sk.missing i 0 else p.sk.missing
        { p with sk := { p.sk with rxCells := Sparse.insert p.sk.rxCells i c, maintSeen := maint, missing := missing } }
      | .errored => if counts then { p with sk := { p.sk with check := satInc 255 p.sk.check } } else p
      | .missing => if counts then { p with sk := p.sk.miss i } else p
    else p

/-- A LISTENING sink notes a cell of its path that stands at its place in a run (R142). -/
def PathRec.watchCell (x : Nat) (hd : Header) (p : PathRec) : PathRec :=
  if p.role = .sink ∧ p.state = .listening ∧ some hd.station = p.remote ∧ hd.tag = p.tag ∧ hd.index = x % p.k then
    { p with sk := { p.sk with watchSeen := if x ∈ p.sk.watchSeen then p.sk.watchSeen else x :: p.sk.watchSeen } }
  else p

/-- HWY examines a cell as a listener (R113, R119, R126, R138, R142). -/
def State.seeCell (s : State) (x : Nat) (line : BitVec 42) (payload : List Byte) : State :=
  let s :=
    match decodeHeader line with
    | some hd =>
      let s := if s.isOwn hd.station then s else s.withdrawMeeting x 1
      let s := s.onRun x 1 (CellEntry.seen hd.station hd.tag)
      if s.mayCreate then s.mapPaths (fun _ p => p.watchCell x hd) else s
    | none => s.onRun x 1 CellEntry.silent
  s.mapPaths (fun _ p => p.examine x line payload)

/-- HIGHWAY_CELL (R111 to R113, R119, R126, R135, R138). A cell that this station drives is not examined as a listener
(R113), also where it lies in the run of a sink of this station, whose counts it leaves (log 36: DESIGN CHOICE). -/
def execHighwayCell (x : Nat) (others noise : BitVec 42) (payload : List Byte) (s : State) :
    Host.Outcome State Fault Refusal :=
  if Config.cells ≤ x then .fault (.noSuchCell x)
  else
    let s := s.setHwy { s.hwy with passed := s.hwy.passed ||| BitVec.twoPow 1024 x }
    .next (
      match s.hwy.drives.find? (fun d => decide (d.first ≤ x) && decide (x < d.first + d.k)) with
      | some d => s.driveCell d x others noise
      | none => s.seeCell x (others ^^^ noise) payload)

/-- SILENT_CELL_EXPIRY (R119): the 32nd silent frame of a HELD entry. -/
def execSilentCellExpiry (x : Nat) (s : State) : Host.Outcome State Fault Refusal :=
  if Config.cells ≤ x then .fault (.noSuchCell x)
  else .next (s.onRun x 1 (fun e => match e with
    | .held h t n rel => if 32 ≤ n + 1 then .free else .held h t n rel
    | e => e))

/-- RESERVATION_AGE_EXPIRY (R118): the second boundary of a reservation with no answer heard. -/
def execReservationAgeExpiry (x : Nat) (s : State) : Host.Outcome State Fault Refusal :=
  if Config.cells ≤ x then .fault (.noSuchCell x)
  else .next (s.onRun x 1 (fun e => match e with
    | .reserved h t age false false => if 2 ≤ age + 1 then .free else .reserved h t age false false
    | e => e))

/-! ### Boundary steps (R123, R125, R129, R131, R133, R137, R141, R142) -/

/-- The countdown of one backoff (R123). -/
def State.backoffStep (h : Nat) (s : State) : State :=
  match s.path h with
  | none => s
  | some p =>
    match p.hw.backoff with
    | none => s
    | some n =>
      if n ≤ 1 then (s.modHw h (fun w => { w with backoff := none })).request h .collided .waiting
      else s.modHw h (fun w => { w with backoff := some (n - 1) })

/-- BACKOFF_END (R123): the boundary at which a backoff reaches 0. -/
def execBackoffEnd (h : Nat) (s : State) : Host.Outcome State Fault Refusal :=
  .next (
    match s.path h with
    | none => s
    | some p =>
      match p.hw.backoff with
      | none => s
      | some n => if n ≤ 1 then s.backoffStep h else s)

/-- The clean count reaches 64 (R137). -/
def SrcHw.cleanStep (w : SrcHw) : SrcHw :=
  let c := satInc 64 w.clean
  { w with clean := c, attempt := if c = 64 then 0 else w.attempt }

/-- The clean count at a boundary (R137). -/
def PathRec.cleanBoundary (p : PathRec) : PathRec :=
  if p.role = .source ∧ p.live ∧ p.hw.cleanRun then { p with hw := p.hw.cleanStep } else p

/-- CLEAN_COUNT_EXPIRY (R137): the 64th whole multiframe without a collision. -/
def execCleanCountExpiry (h : Nat) (s : State) : Host.Outcome State Fault Refusal :=
  .next (s.modPath h (fun p => if 64 ≤ p.hw.clean + 1 then p.cleanBoundary else p))

/-- A move of cells fails at a boundary: the record becomes CARRYING there, so its clean count becomes 0 (R137). -/
def State.failAtBoundary (s : State) (h : Nat) (cause : MoveCause) : State :=
  (s.failCellMove h cause).modHw h (fun w => { w with clean := 0 })

/-- A claim expires (R129, R152). -/
def State.expireClaim (s : State) (b : Bound) : State :=
  let s := s.idleMonitors b.handle
  match s.path b.handle with
  | none => s
  | some p =>
    let s := (s.sendRelease p b.first .withdrawn).freeRun b.first b.k
    if b.move then s.failAtBoundary b.handle .expired
    else
      let block := s.hwy.block
      let s := s.modHw b.handle (fun w =>
        { w with cells := none, backoff := if block then w.backoff else some (s.self + 1) })
      (s.request b.handle .claiming (if block then .blocked else .waiting)).post b.handle .claimExpired

/-- A boundary of the monitor bound to a handle (R127, R129). -/
def State.monitorStep (h : Nat) (s : State) : State :=
  match s.monitorOf h with
  | some (.running b n) =>
    if n ≤ 1 then s.expireClaim b
    else s.setHwy { s.hwy with mons := s.hwy.mons.map (fun m =>
      match m with | .running c r => if c.handle = h then .running c (r - 1) else m | _ => m) }
  | _ => s

/-- CLAIM_EXPIRY (R129, R152): the boundary at which a RUNNING monitor reaches 0. -/
def execClaimExpiry (h : Nat) (s : State) : Host.Outcome State Fault Refusal :=
  .next (
    match s.monitorOf h with
    | some (.running b n) => if n ≤ 1 then s.expireClaim b else s
    | _ => s)

/-- The sink's effective boundary (R131). -/
def State.sinkEffective (h : Nat) (s : State) : State :=
  match s.path h with
  | none => s
  | some p =>
    if p.state = .accepted ∧ p.sk.status = some .sent then
      ((s.modSk h (fun k => { k.zeroed with status := none })).request h .accepted .receiving).post h .sinkStarted
    else s

/-- The claimant's effective boundary (R133). -/
def State.claimEffective (h : Nat) (s : State) : State :=
  match s.path h with
  | none => s
  | some p =>
    if p.state = .claiming ∧ p.hw.acceptHeard = true then
      let s := match p.hw.cells with | some x => s.holdRun x p.k | none => s
      let s := s.modHw h (fun w => { w with acceptHeard := false, clean := 0 })
      (s.request h .claiming .carrying).post h .claimAccepted
    else s

/-- A sink's loss count, and its fall back to LISTENING (R141). -/
def State.lossStep (h : Nat) (s : State) : State :=
  match s.path h with
  | none => s
  | some p =>
    if p.receives then
      if p.sk.rawLoss then
        if 2 ≤ p.sk.loss + 1 then (s.sinkListens h .lost).post h .sinkLost
        else s.modSk h (fun k => { k with loss := k.loss + 1 })
      else s.modSk h (fun k => { k with loss := 0 })
    else s

/-- CELL_LOSS_FALLBACK (R141): the second boundary that finds CELL_LOSS. -/
def execCellLossFallback (h : Nat) (s : State) : Host.Outcome State Fault Refusal :=
  .next (
    match s.path h with
    | none => s
    | some p => if p.receives && p.sk.rawLoss && decide (2 ≤ p.sk.loss + 1) then s.lossStep h else s)

/-- Observed adoption (R142): the watch holds a run that was complete throughout. -/
def State.adopt (h : Nat) (s : State) : State :=
  match s.path h with
  | none => s
  | some p =>
    match p.sk.watch with
    | none => s
    | some x =>
      if p.state = .listening ∧ s.mayCreate = true then
        ((s.modSk h (fun k => { k.zeroed with cells := some x, watch := none })).request h .listening .receiving).post h
          .sinkStarted
      else s

/-- The lowest aligned FREE run of size `k`, looking at `n` places from `x` on (R125). -/
def State.lowestFree (s : State) (k : Nat) : Nat → Nat → Option Nat
  | _, 0 => none
  | x, n + 1 => if s.runFree x k then some x else s.lowestFree k (x + k) n

/-- The run that the choice finds (R125). -/
def State.findRun (s : State) (k : Nat) : Option Nat := s.lowestFree k 0 (Config.cells / k)

/-- The record seeks cells (R124): WAITING with no backoff, or a move in SEEKING. -/
def PathRec.seeks (p : PathRec) : Bool :=
  p.role == .source &&
  ((p.state == .waiting && p.hw.backoff.isNone) ||
   (p.state == .moving && match p.hw.move with | some m => m.phase == .seeking | none => false))

/-- A CLAIM for a run is queued and its entries reserved (R125, R151). -/
def State.claimRun (s : State) (h : Nat) (p : PathRec) (x : Nat) (move : Bool) : State :=
  let s := s.send (.claim { sender := s.self, addressee := p.remote.getD 0, tag := p.tag, first := x, size := p.k,
                            move := move })
  let b : Bound := { handle := h, tag := p.tag, addressee := p.remote.getD 0, first := x, k := p.k, move := move }
  let s := s.setHwy { s.hwy with mons := bindMonitor b s.hwy.mons }
  let s := s.onRun x p.k (fun _ => .ownReserved s.self p.tag)
  if move then
    s.modHw h (fun w =>
      { w with refusal := if w.refusal = some .noCells then none else w.refusal,
               move := w.move.map (fun m => { m with new := some x, phase := .claimed }) })
  else
    (s.modHw h (fun w =>
      { w with cells := some x, refusal := if w.refusal = some .noCells then none else w.refusal })).request h .waiting
        .claiming

/-- The cell choice of one record (R124, R125, R151). -/
def State.chooseCells (h : Nat) (s : State) : State :=
  match s.path h with
  | none => s
  | some p =>
    if p.seeks && s.hasIdle then
      match s.findRun p.k with
      | none =>
        if p.state = .moving then s.failAtBoundary h .noCells
        else s.modHw h (fun w => { w with refusal := some .noCells })
      | some x => if s.hasRoom then s.claimRun h p x (p.state == .moving) else s
    else s

end Sys2Proof.Machine
end

