-- ==== Sys2Proof/Machine/Results.lean ====
section
/-! DEFINITION. Results at the command port: staging, the end of a scan, and the bytes of a scan's result (R168, R181,
R184, R191). -/

namespace Sys2Proof.Machine

/-- A result is staged and the phase becomes RESULT; its first bytes move to the output FIFO (R181). -/
def Cmd.stage (l : List Byte) (waiting : Bool) (c : Cmd) : Cmd :=
  { c with phase := .result, inProgress := none, staged := some (l.drop 16), outFifo := l.take 16, waiting := waiting }

/-- A command that ends at once: its result is staged, and result waiting is not set (R183, R184). -/
def State.answer (s : State) (l : List Byte) : State := s.setCmd (s.cmd.stage l false)

/-- A result that is a termination code alone. -/
def State.answerCode (s : State) (t : Term) : State := s.answer [t.byte]

/-- A scan ends: its result is staged, result waiting becomes yes, and the engine becomes IDLE (R159, R184). -/
def State.endScan (s : State) (l : List Byte) : State :=
  (s.setCrx { s.crx with scan := none }).setCmd (s.cmd.stage l true)

/-- The 20 bytes of a scan's result (R168, R191). -/
def scanResult (t : Term) (found : Option (Nat × Label)) (last : Option (Nat × Relation))
    (examined skipped unreadable : Nat) : List Byte :=
  [t.byte] ++ opt2 (found.map (·.1)) ++ optLabel (found.map (·.2)) ++
  (match last with | some e => [Relation.out e.2] | none => absent 1) ++ opt2 (last.map (·.1)) ++
  be2 examined ++ be2 skipped ++ be2 unreadable

/-- The result of a scan that ends without a found candidate. -/
def Scan.result (t : Term) (sc : Scan) : List Byte :=
  scanResult t none sc.last sc.examined sc.skipped sc.unreadable

/-- An ACTIVE scan ends with a code (R167). -/
def State.stopScan (s : State) (t : Term) : State :=
  match s.crx.scan with
  | none => s
  | some sc => s.endScan (sc.result t)

end Sys2Proof.Machine
end

