-- ==== Sys2Proof/Machine/Scan.lean ====
section
/-! DEFINITION. The label scan engine (R159 to R168): candidates, reading slots, decisions, judging, and the rows
SCAN_STALL and the scan's part of a received frame. -/

namespace Sys2Proof.Machine

/-- The distance between candidates (R161). -/
def stride (p : ScanP) : Nat := p.step * p.size

/-- The last candidate (R161). -/
def lastCandidate (p : ScanP) : Nat := p.first + (p.last - p.first) / stride p * stride p

/-- The candidate after one, if there is one (R161). -/
def nextCandidate (p : ScanP) (g : Nat) : Option Nat := if g + stride p ≤ p.last then some (g + stride p) else none

/-- Eight empty character slots. -/
def noChars : List (Option Char7) := List.replicate 8 none

/-- A candidate taken into its first cycle (R162). -/
def Reading.begin (g : Nat) : Reading :=
  { start := g, second := false, slots := noChars, first := none, idle := false, maint := false }

/-- Fill the empty slots, lowest first, with the next candidates (R162). -/
def fillSlots (p : ScanP) : List (Option Reading) → Option Nat → List (Option Reading) × Option Nat
  | [], n => ([], n)
  | some r :: rest, n =>
    let (l, n') := fillSlots p rest n
    (some r :: l, n')
  | none :: rest, some g =>
    let (l, n') := fillSlots p rest (nextCandidate p g)
    (some (Reading.begin g) :: l, n')
  | none :: rest, none => (none :: rest, none)

/-- The label of a cycle with all eight slots filled. -/
def wholeLabel : List (Option Char7) → Option Label
  | [] => some []
  | none :: _ => none
  | some c :: r => (wholeLabel r).map (c :: ·)

/-- One received frame of a candidate's reading (R162). -/
def Reading.read (x : Nat) (b : RxBerth) (r : Reading) : Reading :=
  match (decodeCopies b.copy1 b.copy2 b.copy3).1 with
  | .idle => { r with idle := true }
  | .maintenance => { r with maint := true, slots := r.slots.set (x % 8) (some (b.label.truncate 7)) }
  | _ => { r with slots := r.slots.set (x % 8) (some (b.label.truncate 7)) }

/-- Read a frame's berths into the slots. A berth that was not read leaves its slot as it was. -/
def readSlots (f : RxFrame) (l : List (Option Reading)) : List (Option Reading) :=
  l.map (fun o => o.map (fun r =>
    match Sparse.find f.berths r.start with
    | some b => r.read f.index.toNat b
    | none => r))

/-- The decision at the end of a cycle (R164): a finding, or the reading carried into its second cycle. -/
def Reading.conclude (skip broken : Bool) (r : Reading) : Finding ⊕ Reading :=
  if r.idle then .inl .skipped
  else if r.maint && skip then .inl .skipped
  else
    match broken, wholeLabel r.slots with
    | false, some l =>
      if !r.second then .inr { r with second := true, first := some l, slots := noChars, idle := false }
      else if r.first = some l then .inl (.readable l)
      else .inl .unreadable
    | _, _ => .inl .unreadable

/-- A decided candidate joins the list, which stays in candidate order (R159, R164). -/
def joinDecided (g : Nat) (x : Finding) : List (Nat × Finding) → List (Nat × Finding)
  | [] => [(g, x)]
  | (a, y) :: r => if g < a then (g, x) :: (a, y) :: r else (a, y) :: joinDecided g x r

/-- Decide every candidate in reading (R163, R164). -/
def decideSlots (skip broken : Bool) :
    List (Option Reading) → List (Nat × Finding) → List (Option Reading) × List (Nat × Finding)
  | [], d => ([], d)
  | none :: r, d =>
    let (l, d') := decideSlots skip broken r d
    (none :: l, d')
  | some x :: r, d =>
    match x.conclude skip broken with
    | .inl f =>
      let (l, d') := decideSlots skip broken r (joinDecided x.start f d)
      (none :: l, d')
    | .inr y =>
      let (l, d') := decideSlots skip broken r d
      (some y :: l, d')

/-- The relation of a label to a pattern, decided at the first unequal position (R165). -/
def relation : Label → Label → Relation
  | p :: ps, c :: cs =>
    if p = 0x7F ∨ p = c then relation ps cs else if c < p then .less else .greater
  | _, _ => .equal

/-- The modes of R165, by their codes (R191): EQUAL 0, AT_MOST 1, AT_LEAST 2. -/
def satisfies (mode : Nat) (r : Relation) : Bool :=
  match r with
  | .equal => true
  | .less => mode == 1
  | .greater => mode == 2

/-- A scan goes on, or has ended with a result. -/
inductive Scanned where
  | going (sc : Scan)
  | ended (result : List Byte)

/-- Judge one candidate (R166). -/
def Scan.judgeOne (g : Nat) (x : Finding) (sc : Scan) : Scanned :=
  let after := fun (sc : Scan) =>
    if g = lastCandidate sc.par then
      Scanned.ended (sc.result (if sc.last.isSome then .notFound else .noLabels))
    else Scanned.going sc
  match x with
  | .skipped => after { sc with examined := sc.examined + 1, skipped := sc.skipped + 1 }
  | .unreadable => after { sc with examined := sc.examined + 1, unreadable := sc.unreadable + 1 }
  | .readable l =>
    let r := relation sc.par.pattern l
    let sc := { sc with examined := sc.examined + 1, last := some (g, r) }
    if satisfies sc.par.mode r then
      .ended (scanResult .ok (some (g, l)) sc.last sc.examined sc.skipped sc.unreadable)
    else after sc

/-- A candidate precedes every candidate still in reading (R166). -/
def precedes (g : Nat) (slots : List (Option Reading)) : Bool :=
  slots.all (fun o => match o with | some r => decide (g < r.start) | none => true)

/-- Judge the decided list from its head; a candidate behind one still in reading waits (R166). -/
def judgeList : List (Nat × Finding) → Scan → Scanned
  | [], sc => .going { sc with decided := [] }
  | (g, x) :: r, sc =>
    if precedes g sc.slots then
      match sc.judgeOne g x with
      | .going sc' => judgeList r sc'
      | .ended l => .ended l
    else .going { sc with decided := (g, x) :: r }

/-- Decide every candidate in reading, then judge. -/
def Scan.decideAndJudge (broken : Bool) (sc : Scan) : Scanned :=
  let (slots, decided) := decideSlots (sc.par.skip == 1) broken sc.slots sc.decided
  judgeList decided { sc with slots := slots }

/-- A frame that is no cycle start adds to the stall count (R163, R167). -/
def Scan.stalled (sc : Scan) : Scanned :=
  if 16 ≤ sc.stall + 1 then .ended (sc.result .notReady) else .going { sc with stall := sc.stall + 1 }

/-- A received index breaks the schedule (R32, R163). -/
def breaksSchedule (prev : Option Nat) (x : Nat) : Bool :=
  decide (15 < x) || match prev with | some p => x != (p + 1) % 16 | none => false

/-- A received frame of the scanned carrier (R162, R163, R166). -/
def Scan.frame (prev : Option Nat) (f : RxFrame) (sc : Scan) : Scanned :=
  let x := f.index.toNat
  if breaksSchedule prev x then
    match sc.decideAndJudge true with
    | .ended l => .ended l
    | .going sc => sc.stalled
  else if x % 8 = 0 then
    match sc.decideAndJudge false with
    | .ended l => .ended l
    | .going sc =>
      let (slots, next) := fillSlots sc.par sc.slots sc.next
      .going { sc with stall := 0, slots := readSlots f slots, next := next }
  else { sc with slots := readSlots f sc.slots }.stalled

/-- The scan's part of a received frame of a carrier. -/
def State.scanFrame (s : State) (c : Nat) (prev : Option Nat) (f : RxFrame) : State :=
  match s.crx.scan with
  | none => s
  | some sc =>
    if sc.par.carrier = c then
      match sc.frame prev f with
      | .going sc => s.setCrx { s.crx with scan := some sc }
      | .ended l => s.endScan l
    else s

/-- The scanned carrier leaves ALIGNED (R167). -/
def State.scanLost (s : State) (c : Nat) : State :=
  match s.crx.scan with
  | none => s
  | some sc => if sc.par.carrier = c then s.stopScan .notReady else s

/-- SCAN_STALL (R163, R167): the frame that brings the stall count to 16. -/
def execScanStall (s : State) : Host.Outcome State Fault Refusal :=
  .next (
    match s.crx.scan with
    | none => s
    | some sc => if 16 ≤ sc.stall + 1 then s.stopScan .notReady else s)

end Sys2Proof.Machine
end

