-- ==== Sys2Proof/Machine/Receive.lean ====
section
/-! DEFINITION. Client receive sides (R16 to R24) and carrier receivers (R27 to R33), and their command rows. -/

namespace Sys2Proof.Machine

/-! ### Client receive sides -/

/-- A receive side in HUNT with both counts 0 (R16, R19, R20). -/
def RxSide.hunting (r : RxSide) : RxSide :=
  { r with align := .hunt, confirm := 0, miss := 0, pos := none, held := none, maint := false }

/-- Store a receive side, with what its state adds to this frame (R22, R24). -/
def State.putRx (s : State) (p : Nat) (r : RxSide) : State :=
  s.setRx p { r with losSeen := r.losSeen || r.los, loaSeen := r.loaSeen || !(r.align == .aligned),
                     maintSeen := r.maintSeen || r.maint }

/-- The path a port sources sees its source again (R22). -/
def State.markPort (s : State) (p : Nat) : State :=
  match s.rxPath p with
  | some h => s.markPath h
  | none => s

/-- A capture that is owed is made at a word of this form: at the first in the normal form, be it found in HUNT, counted
in CONFIRM or received in ALIGNED (R23; log 40: DEDUCED). -/
def RxSide.capturesAt (maint : Bool) (r : RxSide) : Bool := r.captureDue && !maint

/-- A word is found, in either form: its client frame begins, and a capture owed until a normal-form word is made. -/
def RxSide.found (maint : Bool) (r : RxSide) : RxSide :=
  { r with pos := some 2, held := none, maint := maint, captureDue := r.captureDue && maint }

/-- The two bytes at the expected position, in CONFIRM or ALIGNED (R19, R20): the side after them, and whether a capture
is made (R23). -/
def RxSide.word (form : Option Bool) (r : RxSide) : RxSide × Bool :=
  match r.align with
  | .hunt => ({ r with held := none, pos := some 2 }, false)
  | .confirm =>
    match form with
    | none => (r.hunting, false)
    | some m =>
      if 4 ≤ r.confirm + 1 then ({ r.found m with align := .aligned, confirm := 4, miss := 0 }, true)
      else ({ r.found m with confirm := r.confirm + 1 }, r.capturesAt m)
  | .aligned =>
    match form with
    | none =>
      if 4 ≤ r.miss + 1 then (r.hunting, false)
      else ({ r with miss := r.miss + 1, pos := some 2, held := none, maint := false }, false)
    | some m => ({ r.found m with miss := 0 }, r.capturesAt m)

/-- A byte on a receive side that is not held in HUNT, for client frames of size `k` (R18 to R20, R22): the side after
it, whether a capture is made, and whether the byte is delivered. -/
def RxSide.byte (k : Nat) (b : Byte) (r : RxSide) : RxSide × Bool × Bool :=
  match r.pos with
  | none =>
    match r.held.bind (fun a => wordForm a b) with
    | some m => ({ r.found m with align := .confirm, confirm := 0, miss := 0 }, r.capturesAt m, false)
    | none => ({ r with held := some b }, false, false)
  | some 0 => ({ r with held := some b, pos := some 1 }, false, false)
  | some 1 =>
    let (r', cap) := r.word (r.held.bind (fun a => wordForm a b))
    (r', cap, false)
  | some n =>
    ({ r with pos := some (if n + 1 < 2 + 90 * k then n + 1 else 0) }, false, r.align == .aligned && !r.maint)

/-- The port's data byte reaches the store of the path it sources (R17, R22, R64). -/
def State.deliverByte (s : State) (p : Nat) (b : Byte) : State :=
  match s.rxPath p with
  | none => s
  | some h => s.modFil h (fun q f => if s.portAgrees p q.k then f.deliver q.k b else f)

/-- CLIENT_LOS becomes present (R20, R21). -/
def RxSide.loseSignal (r : RxSide) : RxSide := { r.hunting with los := true, quiet := 32 }

/-- A byte time of a used port (R18 to R23). A byte in whose time CLIENT_LOS clears is not compared. -/
def State.clientByte (s : State) (p : Nat) (b : Byte) (transition : Bool) (t : Nat) : State :=
  let r := s.rx p
  if r.los then
    if transition then (s.putRx p { r with los := false, quiet := 0, held := none }).markPort p else s
  else
    let (r1, cap, deliver) := r.byte (s.txSize p) b
    let r2 := { r1 with quiet := if transition then 0 else satInc 32 r.quiet }
    let s := s.putRx p r2
    let s := if deliver then s.deliverByte p b else s
    let s := if cap then s.capture p t else s
    let s := if r2.quiet = 32 then s.putRx p r2.loseSignal else s
    s.markPort p

/-- CLIENT_BYTE_RECEIVED (R18 to R23, R64, R68). An unused port does not search and delivers nothing (R16). -/
def execClientByteReceived (p : Nat) (b : Byte) (transition : Bool) (t : Nat) (s : State) :
    Host.Outcome State Fault Refusal :=
  if 32 ≤ p then .fault (.noSuchPort p)
  else if s.used p then .next (s.clientByte p b transition t)
  else .next s

/-- CLIENT_LOS_ONSET (R21): CLIENT_LOS becomes present on a used port, whatever the count of byte times without a
transition stands at: the row stands for the byte times that bring it about (log 2: DESIGN CHOICE). -/
def execClientLosOnset (p : Nat) (s : State) : Host.Outcome State Fault Refusal :=
  if 32 ≤ p then .fault (.noSuchPort p)
  else if s.used p && !(s.rx p).los then .next ((s.putRx p (s.rx p).loseSignal).markPort p)
  else .next s

/-- CLIENT_LOS_CLEAR (R21): a byte time with a data transition. -/
def execClientLosClear (p : Nat) (s : State) : Host.Outcome State Fault Refusal :=
  if 32 ≤ p then .fault (.noSuchPort p)
  else if s.used p && (s.rx p).los then
    .next ((s.putRx p { s.rx p with los := false, quiet := 0, held := none }).markPort p)
  else .next s

/-- CLIENT_ALIGNED (R19, R23): the fourth confirming word ends at `t`. -/
def execClientAligned (p : Nat) (maint : Bool) (t : Nat) (s : State) : Host.Outcome State Fault Refusal :=
  if 32 ≤ p then .fault (.noSuchPort p)
  else if s.used p && (s.rx p).align == .confirm && decide (4 ≤ (s.rx p).confirm + 1) then
    .next (((s.putRx p ((s.rx p).word (some maint)).1).capture p t).markPort p)
  else .next s

/-- CLIENT_ALIGNMENT_LOSS (R20): the fourth consecutive missing word. -/
def execClientAlignmentLoss (p : Nat) (s : State) : Host.Outcome State Fault Refusal :=
  if 32 ≤ p then .fault (.noSuchPort p)
  else if s.used p && (s.rx p).align == .aligned && decide (4 ≤ (s.rx p).miss + 1) then
    .next ((s.putRx p (s.rx p).hunting).markPort p)
  else .next s

/-! ### Carrier receivers -/

def Carrier.hunting (r : Carrier) : Carrier :=
  { r with align := .hunt, confirm := 0, miss := 0, pos := none, held := [] }

/-- Store a carrier receiver, with what its state adds to this frame (R28, R31). -/
def State.putCarrier (s : State) (c : Nat) (r : Carrier) : State :=
  s.setCarrier c { r with losSeen := r.losSeen || r.los, loaSeen := r.loaSeen || !(r.align == .aligned),
                          delivered := r.delivered &&& r.delivering }

/-- Every path that a carrier feeds sees its source again (R31). -/
def State.markFed (s : State) (c : Nat) : State :=
  (s.feed c).foldl (fun s e => e.handles.foldl (fun s h => s.markPath h) s) s

/-- What loss of alignment does to a capture record (R32, R33). -/
def Capture.lost (r : Capture) : Capture := { r with prev := none, cycle := none, last := none }

/-- A carrier leaves ALIGNED: no berth has been decoded since (R31), though each holds its code (R29), the captures break
(R32, R33), and a scan of this carrier ends (R167). -/
def State.carrierDown (s : State) (c : Nat) (r : Carrier) : State :=
  let s := s.putCarrier c { r with decoded := 0, prevIndex := none }
  let s := s.setFeed c ((s.feed c).map (fun e => { e with cap := e.cap.lost }))
  (s.scanLost c).markFed c

/-- CARRIER_LOS becomes present (R27, R28). -/
def State.carrierSignalLost (s : State) (c : Nat) : State :=
  let r := { (s.carrier c).hunting with los := true, quiet := 32 }
  if (s.carrier c).align = .aligned then s.carrierDown c r else s.putCarrier c r

/-- A carrier receiver after the pattern is found at the expected position in CONFIRM (R19, R27). -/
def Carrier.confirmed (r : Carrier) : Carrier :=
  if 4 ≤ r.confirm + 1 then { r with align := .aligned, confirm := 4, miss := 0, pos := some 4, held := [] }
  else { r with confirm := r.confirm + 1, pos := some 4, held := [] }

/-- A byte on a carrier that is not held in HUNT and is not ALIGNED (R18, R19, R27). -/
def Carrier.byte (b : Byte) (r : Carrier) : Carrier :=
  match r.align, r.pos with
  | .aligned, _ => r
  | .confirm, some n =>
    if n < 3 then { r with held := r.held ++ [b], pos := some (n + 1) }
    else if n = 3 then (if r.held ++ [b] = carrierPattern then r.confirmed else r.hunting)
    else { r with pos := some (if n + 1 < Config.carrierBytes then n + 1 else 0) }
  | _, _ =>
    let seen := r.held ++ [b]
    if seen = carrierPattern then { r with align := .confirm, confirm := 0, miss := 0, pos := some 4, held := [] }
    else { r with held := seen.drop (seen.length - 3) }

/-- CARRIER_BYTE_RECEIVED (R27, R28). In ALIGNED the bytes of a frame come by CARRIER_FRAME_RECEIVED, and this row is
their byte time (log 2: DESIGN CHOICE). -/
def execCarrierByteReceived (c : Nat) (b : Byte) (transition : Bool) (s : State) : Host.Outcome State Fault Refusal :=
  if 4 ≤ c then .fault (.noSuchCarrier c)
  else
    let r := s.carrier c
    if r.los then
      .next (if transition then s.putCarrier c { r with los := false, quiet := 0, held := [] } else s)
    else
      let r1 := { r.byte b with quiet := if transition then 0 else satInc 32 r.quiet }
      let s1 := s.putCarrier c r1
      .next (if r1.quiet = 32 then s1.carrierSignalLost c else s1)

/-- CARRIER_LOS_ONSET (R28): CARRIER_LOS becomes present, whatever the count of byte times without a transition stands at
(log 2: DESIGN CHOICE). -/
def execCarrierLosOnset (c : Nat) (s : State) : Host.Outcome State Fault Refusal :=
  if 4 ≤ c then .fault (.noSuchCarrier c)
  else .next (if (s.carrier c).los then s else s.carrierSignalLost c)

/-- CARRIER_LOS_CLEAR (R28). -/
def execCarrierLosClear (c : Nat) (s : State) : Host.Outcome State Fault Refusal :=
  if 4 ≤ c then .fault (.noSuchCarrier c)
  else .next (if (s.carrier c).los then s.putCarrier c { s.carrier c with los := false, quiet := 0, held := [] } else s)

/-- CARRIER_ALIGNED (R27): the fourth confirming pattern. -/
def execCarrierAligned (c : Nat) (s : State) : Host.Outcome State Fault Refusal :=
  if 4 ≤ c then .fault (.noSuchCarrier c)
  else
    .next (if (s.carrier c).align = .confirm ∧ 4 ≤ (s.carrier c).confirm + 1 then s.putCarrier c (s.carrier c).confirmed
           else s)

/-- CARRIER_ALIGNMENT_LOSS (R27): the fourth consecutive missing pattern. -/
def execCarrierAlignmentLoss (c : Nat) (s : State) : Host.Outcome State Fault Refusal :=
  if 4 ≤ c then .fault (.noSuchCarrier c)
  else
    .next (if (s.carrier c).align = .aligned ∧ 4 ≤ (s.carrier c).miss + 1 then
             s.carrierDown c (s.carrier c).hunting
           else s)

/-! ### Received frames (R27, R29 to R33) -/

/-- The decoded code of a berth as this frame carries it. -/
def berthCode (b : RxBerth) : Code := (decodeCopies b.copy1 b.copy2 b.copy3).1

/-- Berths whose copies disagree or hold a value that is no code (R29). -/
def controlErrors (f : RxFrame) : Nat :=
  f.berths.countP (fun e => (decodeCopies e.2.copy1 e.2.copy2 e.2.copy3).2)

/-- The data bytes of berths `i` to `k - 1` of a group, as far as they were read (R13, R30). -/
def laterBytes (f : RxFrame) (first i : Nat) : Nat → List Byte
  | 0 => []
  | n + 1 =>
    match Sparse.find f.berths (first + i) with
    | none => []
    | some b => b.payload.take 90 ++ laterBytes f first (i + 1) n

/-- The data bytes that a group delivers (R30); none from a group whose first berth was not read, or carries
MAINTENANCE or IDLE. -/
def groupDelivery (f : RxFrame) (first k : Nat) : Option (List Byte) :=
  match Sparse.find f.berths first with
  | none => none
  | some b =>
    match berthCode b with
    | .maintenance => none
    | .idle => none
    | code => some (b.payload.take (firstBytes code) ++ laterBytes f first 1 (k - 1))

/-- The end of a cycle (R33). -/
def Capture.cycleEnd (slots : List (Option Char7)) (r : Capture) : Capture :=
  match wholeLabel slots with
  | none => { r with cycle := none, last := none }
  | some l =>
    if r.last = some l then { r with cycle := none, confirmed := some l } else { r with cycle := none, last := some l }

/-- A cycle in progress is discarded as incomplete (R32, R33). -/
def Capture.discard (r : Capture) : Capture :=
  match r.cycle with
  | none => r
  | some _ => { r with cycle := none, last := none }

/-- The label character of a received frame with index `x` (R32, R33); `berth` is the group's first berth, where it was
read. -/
def Capture.frame (x : Nat) (berth : Option RxBerth) (r : Capture) : Capture :=
  let r1 := { r with prev := if x < 16 then some x else none }
  if breaksSchedule r.prev x then r1.discard
  else
    let r2 := if x % 8 = 0 then { r1.discard with cycle := some noChars } else r1
    match r2.cycle with
    | none => r2
    | some slots =>
      let slots := match berth with
        | some b => if berthCode b = .idle then slots else slots.set (x % 8) (some (b.label.truncate 7))
        | none => slots
      if x % 8 = 7 then r2.cycleEnd slots else { r2 with cycle := some slots }

/-- A confirmed label that differs from an expected one marks the path's frame (R34), from the frame after ADD (R46). -/
def State.markLabel (s : State) (h : Nat) : State :=
  s.modPath h (fun p => if p.begun && s.mislabelled p then { p with lmSeen := true } else p)

/-- What a received frame gives one fed group: delivery to each path, the capture, and what its paths see (R30 to
R34). -/
def State.fedGroup (s : State) (f : RxFrame) (e : FeedEntry) : State :=
  e.handles.foldl (fun s h =>
    let s := match groupDelivery f e.first e.k with
      | some l => s.modFil h (fun p fc => fc.burst p.k l)
      | none => s
    (s.markPath h).markLabel h) s

/-- A received frame of an ALIGNED carrier is read (R27, R29 to R33, R162, R163). -/
def State.readFrame (s : State) (c : Nat) (f : RxFrame) : State :=
  let r := s.carrier c
  let x := f.index.toNat
  let s := s.putCarrier c { r with
    pos := some 0,
    ctlErr := min 65535 (r.ctlErr + controlErrors f),
    codes := f.berths.foldl (fun m e => Sparse.insert m e.1 (berthCode e.2)) r.codes,
    decoded := r.decoded ||| berthSet (f.berths.map (·.1)),
    prevIndex := if x < 16 then some x else none }
  let s := s.setFeed c ((s.feed c).map (fun e =>
    { e with cap := e.cap.frame x (Sparse.find f.berths e.first) }))
  let s := (s.feed c).foldl (fun s e => s.fedGroup f e) s
  s.scanFrame c r.prevIndex f

/-- CARRIER_FRAME_RECEIVED (R27, R29 to R33): at the expected position the pattern is present, or it is missing, and at
the fourth miss in a row the carrier returns to HUNT and the frame is not read. In HUNT and CONFIRM no berth is read. -/
def execCarrierFrameReceived (c : Nat) (f : RxFrame) (s : State) : Host.Outcome State Fault Refusal :=
  if 4 ≤ c then .fault (.noSuchCarrier c)
  else
    let r := s.carrier c
    if r.align = .aligned then
      if f.pattern = carrierPattern then .next ((s.putCarrier c { r with miss := 0 }).readFrame c f)
      else if 4 ≤ r.miss + 1 then .next (s.carrierDown c r.hunting)
      else .next ((s.putCarrier c { r with miss := r.miss + 1 }).readFrame c f)
    else .next s

end Sys2Proof.Machine
end

