-- ==== Sys2Proof/Machine/Paths.lean ====
section
/-! DEFINITION. Host commands on paths: START (R186), ADD (R43 to R46), ENABLE (R49, R50), DISABLE (R51 to R53), DELETE
(R54), MOVE (R60, R147, R151), RECENTRE (R78), NUDGE (R80) and SQUELCH (R94), each with the result it stages. -/

namespace Sys2Proof

/-! ### The fields of ADD PATH (R43, R44, R191) -/

def validSize (k : Nat) : Bool := k == 1 || k == 4 || k == 16

/-- An endpoint within its ranges (R43, R191). -/
def EpParam.valid (e : EpParam) : Bool :=
  e.type == 0 || (e.type == 1 && decide (e.number < 32)) ||
  (e.type == 2 && decide (e.number < 4) && decide (e.berth < 432))

def EpParam.endpoint (e : EpParam) : Option Machine.Endpoint :=
  if e.type = 1 then some (.port e.number) else if e.type = 2 then some (.carrier e.number e.berth) else none

/-- The remote station; the byte 0x7F is absent (R191). -/
def AddP.station (p : AddP) : Option Nat := if p.remote = 127 then none else some p.remote

def AddP.labelGiven (p : AddP) : Option Label := if p.hasLabel = 1 then some p.label else none

/-- The squelch set; bit 6 of the byte is an absent set (R191). -/
def AddP.sqGiven (p : AddP) : Option (BitVec 5) :=
  if p.squelch.getLsbD 6 then none else some (p.squelch.truncate 5)

def AddP.roleOf (p : AddP) : Role := if p.role = 0 then .loc else if p.role = 1 then .source else .sink

/-- The ranges of ADD's fields (R43, R191). -/
def AddP.inRange (p : AddP) : Bool :=
  decide (0 < p.tag) && decide (p.tag < 65536) && decide (p.role < 3) && validSize p.size && p.source.valid &&
  p.sink.valid && (decide (p.remote < 16) || p.remote == 127)

/-- The fields present and absent as the role requires (R44). -/
def AddP.shape (p : AddP) : Bool :=
  let src := p.source.endpoint.isSome
  let snk := p.sink.endpoint.isSome
  match p.roleOf with
  | .loc => src && snk && p.station.isNone && p.sqGiven.isSome
  | .source => src && !snk && p.station.isSome && p.sqGiven.isNone
  | .sink => !src && snk && p.station.isSome && p.labelGiven.isNone && p.sqGiven.isSome

namespace Machine

/-! ### START (R186) -/

def clamp (lo hi n : Nat) : Nat := max lo (min hi n)

/-- A port group whose sizing changes (R16): the receive side searches again, and the transmit side waits in FILL for
the next frame start. A port that becomes unused has no CLIENT_LOS (R21). -/
def State.resizePort (sizing : BitVec 8) (q : Nat) (s : State) : State :=
  if sizing.getLsbD (q / 4) = s.clp.sizing.getLsbD (q / 4) then s
  else
    let k := Machine.portSize sizing q
    let r := (s.rx q).hunting
    let r := if k.isSome then r else { r with los := false, quiet := 0 }
    let t : TxSide := { (s.tx q).handFill with fillPos := 2 + 90 * k.getD 1 }
    (s.putRx q r).setTx q t

/-- START is accepted (R9, R16, R63, R91, R100, R146, R186). -/
def State.started (s : State) (p : StartP) : State :=
  let s := (List.range 32).foldl (fun s q => s.resizePort p.sizing q) s
  let s := s.setClp { s.clp with sizing := p.sizing }
  let s := s.setFil { h := min 15 p.h, n := clamp 1 8 p.n, i := clamp 1 16 p.i, m := clamp 1 255 p.m }
  let s := s.setCbl { s.cbl with holdoff := clamp 1 15 p.holdoff, guard := clamp 1 15 p.guard }
  let s := s.setHwy { s.hwy with
    number := some p.station, timeout := clamp 1 15 p.timeout, block := p.expiry == 1,
    station := if s.hwy.doubt then .mute else .warming, warm := 0 }
  let s := s.setFtm { s.ftm with mfCount := 0 }
  let s := s.setCmd { s.cmd with started := true }
  (List.range 32).foldl (fun s q => s.markPort q) s

/-- START (R186). -/
def State.serveStart (s : State) (p : StartP) : State :=
  if s.cmd.started then s.answerCode .busy
  else if 15 < p.station then s.answerCode .invalid
  else (s.started p).answerCode .ok

/-! ### ADD PATH (R43 to R46) -/

/-- The alignment of a carrier endpoint (R44). -/
def alignedEnd (k : Nat) : Option Endpoint → Bool
  | some (.carrier _ b) => b % k == 0 && decide (b + k ≤ 432)
  | _ => true

/-- The port size of a client endpoint (R44). -/
def State.sizedEnd (s : State) (k : Nat) : Option Endpoint → Bool
  | some (.port q) => s.portAgrees q k
  | _ => true

/-- The source endpoint is taken (R45). -/
def State.sourceBusy (s : State) (k : Nat) : Option Endpoint → Bool
  | some (.port q) => (s.rxPath q).isSome
  | some (.carrier c b) =>
    (s.feed c).any (fun e =>
      if e.k = k then e.first == b && decide (2 ≤ e.handles.length) else runsMeet e.first e.k b k)
  | none => false

/-- The sink endpoint is taken (R45). -/
def State.sinkBusy (s : State) (k : Nat) : Option Endpoint → Bool
  | some (.port q) => (s.txPath q).isSome
  | some (.carrier c b) => s.anyOwner c b k (fun _ => true)
  | none => false

/-- The lowest handle not in use, from `n` on, over the handles in use in rising order. -/
def lowestGap : List Nat → Nat → Nat
  | [], n => n
  | h :: r, n => if h = n then lowestGap r (n + 1) else n

/-- The lowest free handle (R45); 1024 when the table is full. -/
def State.freeHandle (s : State) : Nat := lowestGap s.handles 0

/-- The refusal of ADD, at the first check that fails (R43 to R45). -/
def State.addRefusal (s : State) (p : AddP) : Option Reason :=
  if !p.shape || (p.station.isSome && p.station == s.hwy.number) then some .roleMismatch
  else if !(alignedEnd p.size p.source.endpoint && alignedEnd p.size p.sink.endpoint) then some .alignment
  else if !(s.sizedEnd p.size p.source.endpoint && s.sizedEnd p.size p.sink.endpoint) then some .portSize
  else if s.ptb.paths.any (fun e => e.2.tag == p.tag) then some .duplicateTag
  else if s.sourceBusy p.size p.source.endpoint || s.sinkBusy p.size p.sink.endpoint then some .endpointBusy
  else if 1024 ≤ s.freeHandle then some .tableFull
  else none

/-- The record that ADD creates (R37, R62, R91, R121). -/
def addedRecord (p : AddP) : PathRec :=
  { tag := p.tag, role := p.roleOf, k := p.size, source := p.source.endpoint, sink := p.sink.endpoint,
    remote := p.station, label := p.labelGiven, sqSet := p.sqGiven, state := .defined, enablePending := false,
    completionPending := false, lastCompletion := none, superseded := 0,
    sq := { forced := false, on := false, quiet := 0, srcSeenMf := false, onSeen := false },
    carry := [], labelBuf := zeroLabel, bmove := none, undo := none,
    fil := if p.roleOf = .sink then none else some (Fil.create p.size),
    hw := { cells := none, attempt := 0, backoff := none, refusal := none, acceptHeard := false, clean := 0,
            cleanRun := false, content := none, move := none },
    sk := { cells := none, status := none, missing := [], check := 0, loss := 0, watch := none, watchSeen := [],
            move := none, copy := none, rxCells := [], maintSeen := false, rawDefect := false, rawLoss := false,
            rawCheck := false },
    srcBadSeen := false, lmSeen := false, slipSeen := false, place := .frameStart, liveF := false, squelchF := false,
    begun := false, decided := false, filNew := false }

/-- A group joins a feed list, or a second path joins its entry (R46, section 2.7). -/
def joinFeed (b k h : Nat) (l : List FeedEntry) : List FeedEntry :=
  if l.any (fun e => e.first == b && e.k == k) then
    l.map (fun e => if e.first = b ∧ e.k = k then { e with handles := e.handles ++ [h] } else e)
  else l ++ [{ first := b, k := k, handles := [h], cap := Capture.init }]

/-- The source endpoint of a new path is bound (R46). -/
def State.bindSource (s : State) (h k : Nat) : Option Endpoint → State
  | some (.port q) =>
    let s := s.setPtb { s.ptb with rxBind := Sparse.insert s.ptb.rxBind q h }
    s.setRx q { s.rx q with raising := false, captureDue := (s.rx q).align == .aligned }
  | some (.carrier c b) => s.setFeed c (joinFeed b k h (s.feed c))
  | none => s

/-- The sink endpoint of a new path is bound (R46, R47). -/
def State.bindSink (s : State) (h k : Nat) : Option Endpoint → State
  | some (.port q) => s.setPtb { s.ptb with txBind := Sparse.insert s.ptb.txBind q h }
  | some (.carrier c b) => s.setOwner c b k h .primary
  | none => s

/-- The condition kinds of a path (R169). -/
def pathKinds : Role → List CondKind
  | .loc => [.sourceDefect, .labelMismatch, .squelched]
  | .source => [.sourceDefect, .labelMismatch]
  | .sink => [.sourceDefect, .cellLoss, .cellCheck, .squelched]

/-- The condition instances that a new path brings (R169). -/
def newInsts (h : Nat) (p : PathRec) : List (CondKind × CondObj) :=
  (pathKinds p.role).map (fun k => (k, .path h)) ++
  match p.source with
  | some (.port q) => [(.clientLos, .port q), (.clientLoa, .port q)]
  | _ => []

/-- An accepted ADD (R46). The path's decision point in this frame is that of R11, and its source has been not delivering
in this frame if it was so at any time of it (R22, R31). -/
def State.addRecord (s : State) (h : Nat) (p : PathRec) : State :=
  let p := { p with place := p.placeNow, srcBadSeen := s.notDeliveredAll p }
  let s := ((s.setPath h p).bindSource h p.k p.source).bindSink h p.k p.sink
  (s.setCnd (s.cnd.addInsts (newInsts h p))).markPath h

/-- ADD PATH (R43 to R46). -/
def State.serveAdd (s : State) (p : AddP) : State :=
  if !p.inRange then s.answerCode .invalid
  else
    match s.addRefusal p with
    | some r => s.answer (refusedBy r)
    | none => (s.addRecord s.freeHandle (addedRecord p)).answer (Term.ok.byte :: be2 s.freeHandle)

/-! ### Commands that name a handle (R48, R183) -/

/-- The checks of R48 and R183: the handle's range, then whether the station is started, for the commands that need it,
then whether the handle is in use. -/
def State.withHandle (s : State) (h : Nat) (needsStart : Bool) (f : PathRec → State) : State :=
  if 1023 < h then s.answerCode .invalid
  else if needsStart && !s.cmd.started then s.answerCode .notStarted
  else
    match s.path h with
    | none => s.answerCode .invalid
    | some p => f p

/-! ### ENABLE PATH (R49, R50, R121) -/

/-- The record after ENABLE (R49, R121). -/
def PathRec.enabled (p : PathRec) : PathRec :=
  match p.role with
  | .loc => if p.state = .defined then { p with enablePending := true } else p
  | .source =>
    if p.state = .defined ∨ p.state = .blocked ∨ p.state = .stranded then
      { p with state := .waiting,
               hw := { p.hw with attempt := 0, backoff := none, refusal := none, acceptHeard := false, clean := 0 } }
    else p
  | .sink =>
    if p.state = .defined then
      { p with state := .listening, sk := { p.sk.zeroed with status := none, watch := none, move := none } }
    else p

/-- ENABLE PATH (R49, R50). -/
def State.serveEnable (s : State) (h : Nat) : State :=
  s.withHandle h true (fun p =>
    if p.remote.isSome && p.remote == s.hwy.number then s.answer (refusedBy .roleMismatch)
    else (s.setPath h p.enabled).answerCode .ok)

/-! ### DISABLE PATH (R51 to R53) and DELETE PATH (R54) -/

/-- The messages and cells of a SOURCE record that is disabled or deleted (R52); the record still has the state and the
move it is found with. Of a MOVING record the old run's RELEASE is created before the queued CLAIM is removed, so with a
full queue it is not created (log 11: DESIGN CHOICE). Accept heard keeps its value (R121), and the clean count becomes 0
where the record leaves CARRYING or MOVING (R137). -/
def State.dropSource (s : State) (h : Nat) (p : PathRec) (r : ReleaseReason) : State :=
  let s :=
    match p.state with
    | .claiming =>
      let s := if s.claimQueued h then s.unsendClaim p.tag else s.releaseOpt p p.hw.cells r
      (s.idleMonitors h).freeOpt p.hw.cells p.k
    | .carrying => (s.releaseOpt p p.hw.cells r).freeOpt p.hw.cells p.k
    | .moving => ((s.releaseOpt p p.hw.cells r).freeOpt p.hw.cells p.k).dropNewRun h p r
    | _ => s
  s.modHw h (fun w =>
    { w with attempt := 0, backoff := none, refusal := none, cells := none, move := none,
             clean := if p.live then 0 else w.clean, cleanRun := if p.live then false else w.cleanRun })

/-- The messages of a SINK record that is disabled or deleted (R53, R154). A queued move ACCEPT is removed before the
RELEASE is created, which so finds room (log 11: DESIGN CHOICE). The accept status keeps its value (R121). -/
def State.dropSink (s : State) (h : Nat) (p : PathRec) : State :=
  let s :=
    match p.state with
    | .accepted =>
      if p.sk.status = some AcceptStatus.queued then s.unsendAccept p.tag false else s.releaseOpt p p.sk.cells .sinkGone
    | .receiving | .moving => (s.cancelSinkMove h p).releaseOpt p p.sk.cells .sinkGone
    | _ => s
  s.modSk h (fun k => { k with cells := none, check := 0, watch := none })

/-- Step 3 of R51, and step 2 of R54. -/
def State.dropHighway (s : State) (h : Nat) (p : PathRec) (r : ReleaseReason) : State :=
  match p.role with
  | .loc => s
  | .source => s.dropSource h p r
  | .sink => s.dropSink h p

/-- Step 1 of R51: the forced operation ends, and posts its completion (R82). -/
def State.endForcedOp (s : State) (h : Nat) (p : PathRec) : State :=
  match p.fil with
  | none => s
  | some f =>
    if f.forced.isSome then (s.setPath h { p with fil := some f.endForced }).post h (.recentreEnded .disabled) else s

/-- Step 2 of R51: a move ends, and MOVE_FAILED is posted (R150, R156). -/
def State.endMove (s : State) (h : Nat) (p : PathRec) : State :=
  let s := s.failBerthMove h .disabled
  if p.hw.move.isSome then s.post h (.moveFailed .disabled) else s

/-- DISABLE PATH of a record found in another state than DEFINED (R51). -/
def State.disable (s : State) (h : Nat) (p : PathRec) : State :=
  let s := ((s.endForcedOp h p).endMove h p).dropHighway h p .disabled
  s.modPath h (fun q => { q with state := .defined, enablePending := false })

/-- DISABLE PATH (R51). -/
def State.serveDisable (s : State) (h : Nat) : State :=
  s.withHandle h false (fun p =>
    if p.state = .defined then (s.setPath h { p with enablePending := false }).answerCode .ok
    else (s.disable h p).answerCode .ok)

/-- A path leaves its feed-list entry; an entry with no handle leaves the list (R54). -/
def leaveFeed (h : Nat) (l : List FeedEntry) : List FeedEntry :=
  (l.map (fun e => { e with handles := e.handles.filter (fun x => !(x == h)) })).filter (fun e => !e.handles.isEmpty)

/-- Steps 4 and 5 of R54: the endpoints of a deleted path. -/
def State.unbind (s : State) (h : Nat) (p : PathRec) : State :=
  let s :=
    match p.source with
    | some (.port q) =>
      let s := s.setPtb { s.ptb with rxBind := Sparse.erase s.ptb.rxBind q }
      let s := s.setRx q { s.rx q with raising := false, captureDue := false }
      s.setCnd (s.cnd.dropInsts (.port q))
    | some (.carrier c _) => s.setFeed c (leaveFeed h (s.feed c))
    | none => s
  match p.sink with
  | some (.port q) => s.setPtb { s.ptb with txBind := Sparse.erase s.ptb.txBind q }
  | _ => s

/-- What CBL keeps of a deleted path: no berth, and the frame in progress carries MAINTENANCE in its groups (R54,
R84). -/
def Cbl.forget (c : Cbl) (h : Nat) : Cbl :=
  { c with owners := c.owners.filter (fun e => !(e.2.handle == h)),
           plan := c.plan.map (fun g => if g.handle = some h then { g with handle := none } else g) }

/-- DELETE PATH of a record (R54). A run that is still driven in the rest of the frame and to which no content can be
handed any more carries what the drive holds from the frame before (R111; log 33: DESIGN CHOICE). -/
def State.delete (s : State) (h : Nat) (p : PathRec) : State :=
  let s := s.dropHighway h p .deleted
  let s := s.setCbl (s.cbl.forget h)
  let s := s.unbind h p
  let s := s.setCnd (s.cnd.dropInsts (.path h))
  s.setPtb { s.ptb with
    paths := Sparse.erase s.ptb.paths h
    completions := s.ptb.completions.filter (fun e => !(e.1 == h)) }

/-- DELETE PATH (R54). -/
def State.serveDelete (s : State) (h : Nat) : State :=
  s.withHandle h false (fun p => (s.delete h p).answerCode .ok)

/-! ### MOVE PATH (R60, R147, R151) -/

/-- A move of berths is accepted (R147). -/
def PathRec.moveBerths (p : PathRec) (newC newB oldC oldB : Nat) : PathRec :=
  { p with state := .moving,
           bmove := some { newC := newC, newB := newB, oldC := oldC, oldB := oldB, phase := .pending, guard := 0 } }

/-- CBL's checks of a move of berths (R147). -/
def State.serveMoveBerths (s : State) (h : Nat) (p : PathRec) (c b oldC oldB : Nat) : State :=
  if !(b % p.k == 0 && decide (b + p.k ≤ 432)) then s.answer (refusedBy .alignment)
  else if s.anyOwner c b p.k (fun o => o.handle != h) || (c == oldC && b == oldB) then
    s.answer (refusedBy .endpointBusy)
  else (s.setPath h (p.moveBerths c b oldC oldB)).answerCode .ok

/-- A move of cells is accepted (R151). -/
def PathRec.moveCells (p : PathRec) : PathRec :=
  { p with state := .moving,
           hw := { p.hw with move := some { new := none, old := p.hw.cells.getD 0, phase := .seeking, guard := 0 } } }

/-- MOVE PATH (R60, R147, R151). -/
def State.serveMove (s : State) (h form c b : Nat) : State :=
  if 1 < form || (form == 0 && (decide (3 < c) || decide (431 < b))) then s.answerCode .invalid
  else
    s.withHandle h true (fun p =>
      if p.state = .moving then s.answerCode .busy
      else if form = 0 then
        match p.sink with
        | some (.carrier oldC oldB) =>
          if p.hasSink && p.live then s.serveMoveBerths h p c b oldC oldB else s.answerCode .notLive
        | _ => s.answerCode .notLive
      else if p.role = .source ∧ p.state = .carrying then (s.setPath h p.moveCells).answerCode .ok
      else s.answerCode .notLive)

/-! ### RECENTRE (R78), NUDGE (R80), SQUELCH (R94) -/

/-- A forced operation begins, after the checks of R60 and R78. -/
def State.serveForced (s : State) (h : Nat) (op : PathRec → Forced) : State :=
  s.withHandle h true (fun p =>
    match p.fil with
    | none => s.answerCode .notLive
    | some f =>
      if !p.live then s.answerCode .notLive
      else if f.forced.isSome then s.answerCode .busy
      else (s.setPath h { p with fil := some { f with forced := some (op p) } }).answerCode .ok)

/-- RECENTRE (R78), with the limit M that applies to the path (R63). -/
def State.serveRecentre (s : State) (h : Nat) : State :=
  s.serveForced h (fun p => { nudge := false, steps := 0, limit := (s.filFor p).m, dir := none })

/-- NUDGE (R80). -/
def State.serveNudge (s : State) (h dir count : Nat) : State :=
  if count = 0 ∨ 1 < dir then s.answerCode .invalid
  else s.serveForced h (fun _ =>
    { nudge := true, steps := 0, limit := count, dir := some (if dir = 0 then .down else .up) })

/-- The squelch context after SQUELCH (R94). -/
def Squelch.command (q : Squelch) (set : Bool) : Squelch :=
  if set then { q with forced := true, on := true, onSeen := true } else { q with forced := false }

/-- SQUELCH (R59, R94). -/
def State.serveSquelch (s : State) (h flag : Nat) : State :=
  if 1 < flag then s.answerCode .invalid
  else
    s.withHandle h false (fun p =>
      if p.hasSink then (s.setPath h { p with sq := p.sq.command (flag == 1) }).answerCode .ok
      else s.answerCode .notLive)

end Machine
end Sys2Proof
end

