-- ==== Sys2Proof/Machine/Reports.lean ====
section
/-! DEFINITION. Host commands that read the part: READ PATH, READ CELLS, READ STATION (R187, R188, R191), SENSE (R57),
and those of the condition monitor (R175 to R178) and the scan engine (R160). -/

namespace Sys2Proof.Machine

/-! ### READ PATH (R187, R191) -/

/-- A field of `n` bytes that is present only when `b` holds. -/
def fieldIf (b : Bool) (n : Nat) (l : List Byte) : List Byte := if b then l else absent n

/-- The squelch set byte (R191). Of an absent set only bit 6 is given, and its other bits are 0 (log 39: DESIGN CHOICE). -/
def squelchOut : Option (BitVec 5) → Byte
  | some q => q.zeroExtend 8
  | none => 0x40

/-- Section 1: the record. -/
def State.recordOut (s : State) (h : Nat) (p : PathRec) : List Byte :=
  be2 h ++ be2 p.tag ++ [Role.out p.role, byteOf p.k] ++ endpointOut p.source ++ endpointOut p.sink ++ opt1 p.remote ++
  optLabel p.label ++ [squelchOut p.sqSet, p.state.out] ++
  fieldIf (p.role == .loc) 1 [flagByte p.enablePending] ++ optLabel (s.confirmed p)

/-- Section 2: the completion fields. -/
def PathRec.completionOut (p : PathRec) : List Byte :=
  [flagByte p.completionPending] ++ (match p.lastCompletion with | some c => c.out | none => absent 2) ++
  [byteOf p.superseded]

/-- The forced-operation sub-record. -/
def Forced.out (o : Forced) : List Byte :=
  [flagByte o.nudge, byteOf o.steps, byteOf o.limit] ++
  (match o.dir with | some .down => [0] | some .up => [1] | none => absent 1) ++
  fieldIf o.nudge 1 [byteOf (o.limit - o.steps)]

/-- A decision, with bit 2 set when it was forced. -/
def decisionOut (d : Dec) (forced : Bool) : Byte :=
  byteOf ((match d with | .normal => 0 | .extra => 1 | .short => 2) + if forced then 4 else 0)

/-- Section 3: the fill context (R83). -/
def Fil.out (f : Fil) : List Byte :=
  be2 f.store.length ++
  [decisionOut f.lastDec f.lastForced, byteOf f.spacing] ++
  be2 f.wCount ++ int2 f.wSum ++ [flagByte (!f.wValid)] ++
  (match f.offset with | some i => int2 i | none => [0x80, 0x00]) ++
  [flagByte f.clamped, flagByte f.lastInvalid] ++ be2 f.slips ++
  (match f.forced with | some o => o.out | none => absent 5) ++ [byteOf f.lastSteps]

def BerthRole.out : BerthRole → Byte
  | .primary => 0 | .bridge => 1 | .retiring => 2

/-- The groups that a path owns, one for each owned first berth (R98), in rising order of carrier and berth: the manual
gives no order (log 34: DESIGN CHOICE). -/
def State.ownedGroups (s : State) (h k : Nat) : List (Nat × Owner) :=
  s.cbl.owners.filter (fun e => e.2.handle == h && (e.1 % 432) % k == 0)

/-- Section 4: the squelch context and the owned groups (R98). -/
def State.squelchSection (s : State) (h : Nat) (p : PathRec) : List Byte :=
  [squelchOut p.sqSet, flagByte p.sq.forced, flagByte p.sq.on, byteOf p.sq.quiet,
   byteOf (s.ownedGroups h p.k).length] ++
  (s.ownedGroups h p.k).flatMap (fun e => [byteOf (e.1 / 432)] ++ be2 (e.1 % 432) ++ [e.2.role.out])

def refusalOut : Option RefusalField → Byte
  | none => 0xFF
  | some .noCells => 6
  | some (.reason r) => byteOf r.code

/-- The state and remaining count of a monitor. -/
def monitorOut : Option Monitor → List Byte
  | none => absent 2
  | some .idle => [0] ++ absent 1
  | some (.bound _) => [1] ++ absent 1
  | some (.running _ n) => [2, byteOf n]

/-- Section 5: the highway fields (R145). -/
def State.highwayOut (s : State) (h : Nat) (p : PathRec) : List Byte :=
  match p.role with
  | .sink =>
    opt2 p.sk.cells ++ (match p.sk.status with | some .queued => [1] | some .sent => [2] | none => absent 1) ++
    [byteOf p.sk.check, byteOf p.sk.loss] ++ opt2 p.sk.watch ++
    (List.range p.k).map (fun i => byteOf (Sparse.get 0 p.sk.missing i))
  | _ =>
    opt2 p.hw.cells ++ [byteOf p.hw.attempt] ++ opt1 p.hw.backoff ++
    [refusalOut p.hw.refusal, flagByte p.hw.acceptHeard, byteOf p.hw.clean] ++ monitorOut (s.monitorOf h)

def BerthPhase.out : BerthPhase → Byte
  | .pending => 0 | .bridge => 1 | .retiring => 2

def CellPhase.out : CellPhase → Byte
  | .seeking => 3 | .claimed => 4 | .accepted => 5 | .bridge => 1 | .retiring => 2

/-- The move context. -/
def PathRec.moveOut (p : PathRec) : List Byte :=
  match p.bmove, p.hw.move with
  | some m, _ =>
    [0, byteOf m.newC] ++ be2 m.newB ++ [m.phase.out, byteOf m.guard, byteOf m.oldC] ++ be2 m.oldB
  | none, some m => [1] ++ absent 1 ++ opt2 m.new ++ [m.phase.out, byteOf m.guard] ++ absent 1 ++ be2 m.old
  | none, none => absent 9

/-- The cell move of a sink. -/
def SinkMove.out (m : SinkMove) : List Byte :=
  be2 m.new ++ [(match m.status with | .queued => 0 | .sent => 1 | .bridging => 2), byteOf m.guard]

/-- Section 6: the move context and the cell move (R157). -/
def PathRec.movesOut (p : PathRec) : List Byte :=
  p.moveOut ++ match p.sk.move with | some m => m.out | none => absent 4

/-- Section 7: the condition instances of the path (R179). -/
def State.instsOut (s : State) (h : Nat) : List Byte :=
  (s.cnd.insts.filter (fun e => e.2.obj == .path h)).flatMap (fun e =>
    [byteOf (condCode e.2.kind), flagByte e.2.declared, byteOf e.2.soak, (s.cnd.setting e.2.kind).type.out])

/-- The result of READ PATH: sections 3, 4 and 5 only in the roles that have them (R191). -/
def State.pathOut (s : State) (h : Nat) (p : PathRec) : List Byte :=
  [Term.ok.byte] ++ sectionOut 1 (s.recordOut h p) ++ sectionOut 2 p.completionOut ++
  (match p.fil with | some f => sectionOut 3 f.out | none => []) ++
  (if p.hasSink then sectionOut 4 (s.squelchSection h p) else []) ++
  (if p.role = .loc then [] else sectionOut 5 (s.highwayOut h p)) ++
  sectionOut 6 p.movesOut ++ sectionOut 7 (s.instsOut h)

/-- READ PATH (R187). -/
def State.serveReadPath (s : State) (h : Nat) : State := s.withHandle h false (fun p => s.answer (s.pathOut h p))

/-! ### READ CELLS (R120, R187) -/

/-- READ CELLS (R187). -/
def State.serveReadCells (s : State) (first count : Nat) : State :=
  if 1023 < first ∨ count = 0 ∨ 16 < count ∨ 1024 < first + count then s.answerCode .invalid
  else s.answer ([Term.ok.byte, byteOf count] ++ (List.range count).flatMap (fun i => (s.entry (first + i)).out))

/-! ### READ STATION (R188) -/

def Station.out : Station → Byte
  | .unstarted => 0 | .warming => 1 | .joined => 2 | .mute => 3

def Align.out : Align → Byte
  | .hunt => 0 | .confirm => 1 | .aligned => 2

/-- A monitor with its bound tag and remaining count. -/
def Monitor.out : Monitor → List Byte
  | .idle => [0] ++ absent 3
  | .bound b => [1] ++ be2 b.tag ++ absent 1
  | .running b n => [2] ++ be2 b.tag ++ [byteOf n]

/-- The declared state and soak counter of an instance. -/
def State.instOut (s : State) (k : CondKind) (o : CondObj) : List Byte :=
  match s.inst k o with
  | some i => [flagByte i.declared, byteOf i.soak]
  | none => absent 2

/-- The client ports that have instances, in port order (R169). -/
def State.portsWithInsts (s : State) : List Nat := (List.range 32).filter (fun q => (s.inst .clientLos (.port q)).isSome)

def Ftm.out (f : Ftm) : List Byte :=
  [(match f.timer with | .tracking => 0 | .holdover => 1), byteOf f.frame] ++ be2 f.mfCount ++ be2 f.entries ++
  be2 f.realigns

def Hwy.out (w : Hwy) : List Byte :=
  [w.station.out] ++ opt1 w.number ++ [byteOf w.warm, flagByte w.doubt, byteOf w.sendQ.length] ++
  opt1 (w.sendQ.head?.map (fun q => q.msg.kindCode)) ++ w.mons.flatMap Monitor.out ++ be2 w.msgCheck

/-- The result of READ STATION (R188, R191). -/
def State.stationOut (s : State) : List Byte :=
  [Term.ok.byte] ++ sectionOut 1 s.ftm.out ++ sectionOut 2 s.hwy.out ++
  sectionOut 3 ((List.range 4).flatMap (fun c => [(s.carrier c).align.out] ++ be2 (s.carrier c).ctlErr)) ++
  sectionOut 4 [s.clp.sizing, byteOf s.fil.h, byteOf s.fil.n, byteOf s.fil.i, byteOf s.fil.m, byteOf s.hwy.timeout,
                flagByte s.hwy.block, byteOf s.cbl.guard, byteOf s.cbl.holdoff, flagByte s.cmd.started] ++
  sectionOut 5 (
    [CondKind.refLost, .carrierLos, .carrierLoa, .clientLos, .clientLoa].map (fun k => (s.cnd.setting k).type.out) ++
    s.instOut .refLost .station ++
    (List.range 4).flatMap (fun c => s.instOut .carrierLos (.carrier c) ++ s.instOut .carrierLoa (.carrier c)) ++
    [byteOf s.portsWithInsts.length] ++
    s.portsWithInsts.flatMap (fun q => [byteOf q] ++ s.instOut .clientLos (.port q) ++ s.instOut .clientLoa (.port q)))

/-- The counts that READ STATION returns to 0 (R188). -/
def State.clearCounts (s : State) : State :=
  let s := s.setHwy { s.hwy with msgCheck := 0 }
  (List.range 4).foldl (fun s c => s.setCarrier c { s.carrier c with ctlErr := 0 }) s

/-- READ STATION (R188). -/
def State.serveReadStation (s : State) : State := s.clearCounts.answer s.stationOut

/-! ### SENSE (R57) -/

/-- SENSE (R57). -/
def State.serveSense (s : State) : State :=
  match s.ptb.completions with
  | [] => s.answerCode .invalid
  | (h, c) :: rest =>
    let s' := s.setPtb { s.ptb with completions := rest }
    match s.path h with
    | none => s'.answerCode .invalid
    | some p =>
      (s'.setPath h { p with superseded := 0, completionPending := false }).answer
        ([Term.ok.byte] ++ be2 h ++ c.out ++ [p.state.out, byteOf p.superseded])

/-! ### The condition monitor's commands (R175 to R178) -/

/-- READ CONDITIONS (R175). -/
def State.serveReadConditions (s : State) : State :=
  let l := s.cnd.queue.take 8
  (s.setCnd { s.cnd with queue := s.cnd.queue.drop 8 }).answer
    ([Term.ok.byte, byteOf l.length] ++ l.flatMap CondRec.out)

/-- The kind of a code (R191). -/
def kindOf (n : Nat) : Option CondKind :=
  match n with
  | 1 => some .refLost | 2 => some .clientLos | 3 => some .clientLoa | 4 => some .carrierLos | 5 => some .carrierLoa
  | 6 => some .sourceDefect | 7 => some .cellLoss | 8 => some .cellCheck | 9 => some .labelMismatch
  | 10 => some .squelched | 11 => some .fillSlip | 12 => some .messageCheck | _ => none

/-- The report type of a code (R191). -/
def typeOf (n : Nat) : Option ReportType :=
  match n with
  | 0 => some .off | 1 => some .raiseOnly | 2 => some .raiseClear | 3 => some .repeating | _ => none

/-- SET REPORT (R176). -/
def State.serveSetReport (s : State) (p : ReportP) : State :=
  match kindOf p.kind, typeOf p.type with
  | some k, some t =>
    if 7 < p.raiseM ∨ 7 < p.clearM ∨ 7 < p.repeatM ∨ 3 < p.raiseE ∨ 3 < p.clearE ∨ 3 < p.repeatE ∨
        (condIsEvent k = true ∧ 1 < p.type) then s.answerCode .invalid
    else
      let new : Setting := { type := t, raiseM := p.raiseM, raiseE := p.raiseE, clearM := p.clearM,
                             clearE := p.clearE, repeatM := p.repeatM, repeatE := p.repeatE }
      let set : Setting := if condIsEvent k then { defaultSetting k with type := t } else new
      let table := Sparse.put (defaultSetting k) s.cnd.settings (condCode k) set
      (s.setCnd { s.cnd with settings := table }).answerCode .ok
  | _, _ => s.answerCode .invalid

/-- QUIET (R177). -/
def State.serveQuiet (s : State) : State := (s.setCnd { s.cnd with quiet := true }).answerCode .ok

/-- RESUME (R177). -/
def State.serveResume (s : State) : State := (s.setCnd (s.cnd.resume s.ftm.mfCount)).answerCode .ok

/-- DEFAULTS (R178). -/
def State.serveDefaults (s : State) : State :=
  (s.setCnd { s.cnd with settings := [], queue := [], quiet := false }).answerCode .ok

/-! ### LABEL SCAN (R160) -/

/-- The ranges of a scan's parameters (R160, step 1). -/
def scanInRange (p : ScanP) : Bool :=
  decide (p.carrier < 4) && validSize p.size && decide (p.first < 432) && decide (p.last < 432) &&
  p.first % p.size == 0 && decide (p.first ≤ p.last) && decide (0 < p.step) && decide (p.mode < 3)

/-- The engine as a scan begins (R160). -/
def Scan.begin (p : ScanP) : Scan :=
  { par := p, next := some p.first, slots := List.replicate 32 none, decided := [], examined := 0, skipped := 0,
    unreadable := 0, last := none, stall := 0 }

/-- The scan begins execution; a byte left in the input FIFO aborts it at once (R160, R184). -/
def State.beginScan (s : State) (p : ScanP) : State :=
  match s.cmd.inFifo with
  | [] =>
    (s.setCrx { s.crx with scan := some (Scan.begin p) }).setCmd
      { s.cmd with phase := .execution, inProgress := none, staged := none, outFifo := [], waiting := false }
  | _ :: r => (s.setCmd { s.cmd with inFifo := r }).endScan ((Scan.begin p).result .aborted)

/-- LABEL SCAN (R160). -/
def State.serveLabelScan (s : State) (p : ScanP) : State :=
  if !scanInRange p then s.answerCode .invalid
  else if (s.carrier p.carrier).align ≠ .aligned then s.answer (scanResult .notReady none none 0 0 0)
  else s.beginScan p

end Sys2Proof.Machine
end

