-- ==== Sys2Proof/Machine/Port.lean ====
section
/-! DEFINITION. The command port: serving a command (R183), taking bytes (R181, R182, R184), and the rows of the host's
commands and of the port itself. -/

namespace Sys2Proof.Machine

/-- A command is taken: its effect and its result (R183). -/
def State.serve (s : State) : HostCmd → State
  | .start p => s.serveStart p
  | .addPath p => s.serveAdd p
  | .deletePath h => s.serveDelete h
  | .enablePath h => s.serveEnable h
  | .disablePath h => s.serveDisable h
  | .movePath h form c b => s.serveMove h form c b
  | .recentre h => s.serveRecentre h
  | .nudge h dir count => s.serveNudge h dir count
  | .squelch h flag => s.serveSquelch h flag
  | .readPath h => s.serveReadPath h
  | .readCells first count => s.serveReadCells first count
  | .labelScan p => s.serveLabelScan p
  | .sense => s.serveSense
  | .readConditions => s.serveReadConditions
  | .setReport p => s.serveSetReport p
  | .defaults => s.serveDefaults
  | .quiet => s.serveQuiet
  | .resume => s.serveResume
  | .readStation => s.serveReadStation

/-! ### Bytes (R182, R184) -/

/-- A command byte with no command in progress (R182). -/
def State.beginCommand (s : State) (b : Byte) : State :=
  match paramCount b.toNat with
  | none => s.answerCode .invalid
  | some 0 =>
    match parseCommand b.toNat [] with
    | some c => s.serve c
    | none => s.answerCode .invalid
  | some _ => s.setCmd { s.cmd with inProgress := some (b.toNat, []) }

/-- A parameter byte for a command in progress (R182). -/
def State.addParameter (s : State) (code : Nat) (l : List Byte) (b : Byte) : State :=
  if (l ++ [b]).length < (paramCount code).getD 0 then
    s.setCmd { s.cmd with inProgress := some (code, l ++ [b]) }
  else
    match parseCommand code (l ++ [b]) with
    | some c => (s.setCmd { s.cmd with inProgress := none }).serve c
    | none => s.answerCode .invalid

/-- A byte taken in COMMAND (R182). -/
def State.commandByte (s : State) (b : Byte) : State :=
  if b < 0x80 then
    match s.cmd.inProgress with
    | some (code, l) => s.addParameter code l b
    | none => s.answerCode .invalid
  else (s.setCmd { s.cmd with inProgress := none }).beginCommand b

/-- A result is discarded (R184). -/
def Cmd.discard (c : Cmd) : Cmd :=
  { c with phase := .command, inProgress := none, staged := none, outFifo := [], waiting := false }

/-- CMD takes a byte (R182, R184). -/
def State.takeByte (s : State) (b : Byte) : State :=
  match s.cmd.phase with
  | .command => s.commandByte b
  | .execution => s.stopScan .aborted
  | .result => (s.setCmd s.cmd.discard).commandByte b

/-- CMD takes the oldest byte of the input FIFO, if there is one (R181). -/
def State.takeOne (s : State) : State :=
  match s.cmd.inFifo with
  | [] => s
  | b :: r => (s.setCmd { s.cmd with inFifo := r }).takeByte b

def State.takeMany (s : State) : Nat → State
  | 0 => s
  | n + 1 => s.takeOne.takeMany n

/-- Every byte that waits in the input FIFO is taken. -/
def State.drain (s : State) : State := s.takeMany s.cmd.inFifo.length

/-- A host's command, written and taken after the bytes that already wait (log 4: DESIGN CHOICE). In EXECUTION its code byte aborts
the scan, and a parameter byte after it is taken in RESULT (R184). -/
def State.hostCommand (s : State) (c : HostCmd) : State :=
  let s := s.drain
  match s.cmd.phase with
  | .command => (s.setCmd { s.cmd with inProgress := none }).serve c
  | .result => (s.setCmd s.cmd.discard).serve c
  | .execution =>
    let s := s.stopScan .aborted
    if c.params.isEmpty then s else (s.setCmd s.cmd.discard).answerCode .invalid

/-! ### The rows of the host's commands -/

/-- START (R186). -/
def execStart (p : StartP) (s : State) : Host.Outcome State Fault Refusal := .next (s.hostCommand (.start p))

/-- ADD PATH (R43 to R46). -/
def execAddPath (p : AddP) (s : State) : Host.Outcome State Fault Refusal := .next (s.hostCommand (.addPath p))

/-- DELETE PATH (R54, R55). -/
def execDeletePath (h : Nat) (s : State) : Host.Outcome State Fault Refusal := .next (s.hostCommand (.deletePath h))

/-- ENABLE PATH (R49, R50). -/
def execEnablePath (h : Nat) (s : State) : Host.Outcome State Fault Refusal := .next (s.hostCommand (.enablePath h))

/-- DISABLE PATH (R51 to R53). -/
def execDisablePath (h : Nat) (s : State) : Host.Outcome State Fault Refusal := .next (s.hostCommand (.disablePath h))

/-- MOVE PATH (R60, R147, R151). -/
def execMovePath (h form c b : Nat) (s : State) : Host.Outcome State Fault Refusal :=
  .next (s.hostCommand (.movePath h form c b))

/-- RECENTRE (R78). -/
def execRecentre (h : Nat) (s : State) : Host.Outcome State Fault Refusal := .next (s.hostCommand (.recentre h))

/-- NUDGE (R80). -/
def execNudge (h dir count : Nat) (s : State) : Host.Outcome State Fault Refusal :=
  .next (s.hostCommand (.nudge h dir count))

/-- SQUELCH (R59, R94). -/
def execSquelch (h flag : Nat) (s : State) : Host.Outcome State Fault Refusal := .next (s.hostCommand (.squelch h flag))

/-- READ PATH (R187). -/
def execReadPath (h : Nat) (s : State) : Host.Outcome State Fault Refusal := .next (s.hostCommand (.readPath h))

/-- READ CELLS (R187). -/
def execReadCells (first count : Nat) (s : State) : Host.Outcome State Fault Refusal :=
  .next (s.hostCommand (.readCells first count))

/-- LABEL SCAN (R160). -/
def execLabelScan (p : ScanP) (s : State) : Host.Outcome State Fault Refusal := .next (s.hostCommand (.labelScan p))

/-- SENSE (R57). -/
def execSense (s : State) : Host.Outcome State Fault Refusal := .next (s.hostCommand .sense)

/-- READ CONDITIONS (R175). -/
def execReadConditions (s : State) : Host.Outcome State Fault Refusal := .next (s.hostCommand .readConditions)

/-- SET REPORT (R176). -/
def execSetReport (p : ReportP) (s : State) : Host.Outcome State Fault Refusal := .next (s.hostCommand (.setReport p))

/-- DEFAULTS (R178). -/
def execDefaults (s : State) : Host.Outcome State Fault Refusal := .next (s.hostCommand .defaults)

/-- QUIET (R177). -/
def execQuiet (s : State) : Host.Outcome State Fault Refusal := .next (s.hostCommand .quiet)

/-- RESUME (R177). -/
def execResume (s : State) : Host.Outcome State Fault Refusal := .next (s.hostCommand .resume)

/-- READ STATION (R188). -/
def execReadStation (s : State) : Host.Outcome State Fault Refusal := .next (s.hostCommand .readStation)

/-! ### The rows of the port -/

/-- DATA_WRITE (R181): the byte joins the input FIFO, or is lost where 16 bytes wait. -/
def execDataWrite (b : Byte) (s : State) : Host.Outcome State Fault Refusal :=
  .next (if s.cmd.inFifo.length < 16 then s.setCmd { s.cmd with inFifo := s.cmd.inFifo ++ [b] } else s)

/-- A read of the data address (R181, R184). -/
def Cmd.read (c : Cmd) : Cmd :=
  match c.outFifo with
  | [] => { c with cpData := 0xFF }
  | b :: r =>
    let rest := c.staged.getD []
    let out := r ++ rest.take 1
    if out.isEmpty then { c with phase := .command, staged := none, outFifo := [], waiting := false, cpData := b }
    else { c with staged := some (rest.drop 1), outFifo := out, waiting := false, cpData := b }

/-- DATA_READ (R181, R184). -/
def execDataRead (s : State) : Host.Outcome State Fault Refusal := .next (s.setCmd s.cmd.read)

/-- STATUS_WRITE (R180): ignored. -/
def execStatusWrite (_b : Byte) (s : State) : Host.Outcome State Fault Refusal := .next s

/-- PARAMETER_BYTE (R182, R184): a byte below 0x80, written and taken after the bytes that already wait. -/
def execParameterByte (b : Byte) (s : State) : Host.Outcome State Fault Refusal :=
  .next (if b < 0x80 then s.drain.takeByte b else s)

/-- UNKNOWN_COMMAND (R182, R184): a byte from 0x80 on that is no known code, written and taken after the bytes that
already wait. -/
def execUnknownCommand (b : Byte) (s : State) : Host.Outcome State Fault Refusal :=
  .next (if ¬ b < 0x80 ∧ (paramCount b.toNat).isNone = true then s.drain.takeByte b else s)

/-- SCAN_ABORT (R167, R184): a byte taken in EXECUTION, whatever its value; the oldest that waits, where one does. -/
def execScanAbort (s : State) : Host.Outcome State Fault Refusal :=
  .next (
    match s.cmd.phase with
    | .execution => (s.setCmd { s.cmd with inFifo := s.cmd.inFifo.drop 1 }).stopScan .aborted
    | _ => s)

end Sys2Proof.Machine
end

