-- ==== Sys2Proof/Machine/Frame.lean ====
section
/-! DEFINITION. What a frame start does: the frame that ends (R24, R28, R35, R93, R97, R138 to R142, R170), the boundary
(R10), and the frame that begins (R84 to R90, R111, R139). -/

namespace Sys2Proof.Machine

/-! ### The frame that ends -/

/-- The cell has not passed in this frame: it counts as silent (R113). -/
def State.unpassed (s : State) (x : Nat) : Bool := !s.hwy.passed.getLsbD x

/-- Change every entry of the cell map by itself; FREE entries are not listed. -/
def mapCells (f : Nat → CellEntry → CellEntry) (m : Sparse CellEntry) : Sparse CellEntry :=
  (Sparse.mapVals f m).filter (fun e => !(e.2 == .free))

/-- The map entries of cells that did not pass (R119). -/
def State.silentCells (s : State) : State :=
  s.setHwy { s.hwy with cells := mapCells (fun x e => if s.unpassed x then e.silent else e) s.hwy.cells }

/-- The cells of a copied run that did not pass are missing (R138). -/
def missUnpassed (passed : BitVec 1024) (r : Nat) : Nat → SnkHw → SnkHw
  | 0, k => k
  | n + 1, k =>
    let k := missUnpassed passed r n k
    if passed.getLsbD (r + n) then k else k.miss n

/-- The raw states of a sink in the frame that ends (R140), by the state it is in at the frame's end: a record that has
left RECEIVING and MOVING in the frame hands all three absent (log 22: DESIGN CHOICE). -/
def PathRec.sinkRaws (passed : BitVec 1024) (p : PathRec) : PathRec :=
  if p.receives then
    let k :=
      match p.sk.copy with
      | some r => if p.sk.cells = some r then missUnpassed passed r p.k p.sk else p.sk
      | none => p.sk
    { p with sk := { k with rawDefect := k.maintSeen, rawLoss := k.missing.any (fun e => e.2 == 4),
                            rawCheck := decide (4 ≤ k.check) } }
  else { p with sk := { p.sk with rawDefect := false, rawLoss := false, rawCheck := false } }

/-- A run is complete among the cells seen (R142). -/
def completeRun (seen : List Nat) (k x : Nat) : Bool := (List.range k).all (fun i => seen.contains (x + i))

/-- The lowest complete aligned run, looking at `n` places from `x` on (R142). -/
def lowestComplete (seen : List Nat) (k : Nat) : Nat → Nat → Option Nat
  | _, 0 => none
  | x, n + 1 => if completeRun seen k x then some x else lowestComplete seen k (x + k) n

/-- The adoption watch after a frame with number `n` (R142). -/
def PathRec.watchFrame (awake : Bool) (n : Nat) (p : PathRec) : PathRec :=
  let w : Option Nat :=
    if p.role == .sink && p.state == .listening && awake then
      if n = 0 then lowestComplete p.sk.watchSeen p.k 0 (Config.cells / p.k)
      else match p.sk.watch with
        | some x => if completeRun p.sk.watchSeen p.k x then some x else none
        | none => none
    else none
  { p with sk := { p.sk with watch := w } }

/-- The frame that ends: silence, the sinks' raw states and watches, squelch onset, and the samples. -/
def State.endFrame (s : State) : State :=
  let s := s.silentCells
  let passed := s.hwy.passed
  let awake := s.mayCreate
  let n := s.ftm.frame
  (s.mapPaths (fun _ p => ((p.sinkRaws passed).watchFrame awake n).squelchOnset)).sampleFrame

/-! ### The boundary -/

/-- The boundary at the frame timer and CND: CND's records carry the count before it advances (R9, R171, R172). -/
def State.countMultiframe (s : State) : State :=
  let s := s.setCnd (s.cnd.boundary s.ftm.mfCount)
  if s.cmd.started then s.setFtm { s.ftm with mfCount := (s.ftm.mfCount + 1) % 65536 } else s

/-- The warm count (R101), then the indication that a realignment owes (R8, R103). -/
def State.stationBoundary (s : State) : State :=
  let s := s.setHwy { s.hwy with msgRaised := false }
  let s :=
    if s.hwy.station = .warming then
      if 2 ≤ s.hwy.warm + 1 then s.setHwy { s.hwy with warm := 2, station := .joined }
      else s.setHwy { s.hwy with warm := s.hwy.warm + 1 }
    else s
  if s.ftm.restoreDue && s.ftm.timer == .tracking then
    (s.setFtm { s.ftm with restoreDue := false }).timingRestored
  else s

/-- WARMING_END (R101): the boundary at which the warm count reaches 2. -/
def execWarmingEnd (s : State) : Host.Outcome State Fault Refusal :=
  .next (if s.hwy.station = .warming ∧ 2 ≤ s.hwy.warm + 1 then
    s.setHwy { s.hwy with warm := 2, station := .joined } else s)

/-- A pending enable (R50). -/
def PathRec.localEnable (p : PathRec) : PathRec :=
  if p.role = .loc ∧ p.enablePending = true then
    { p with enablePending := false, state := if p.state = .defined then .carrying else p.state }
  else p

/-- The counts of a multiframe restart (R137, R138). -/
def PathRec.restartMultiframe (p : PathRec) : PathRec :=
  { p with sk := { p.sk with check := 0 }, hw := { p.hw with cleanRun := p.role == .source && p.live } }

/-- The boundary (R10). The order is that of R124, R118 and R141 where they fix one, else log 10: DESIGN CHOICE. -/
def State.boundary (s : State) : State :=
  let s := s.countMultiframe
  let s := s.mapPaths (fun _ p => p.squelchBoundary s.cbl.holdoff)
  let s := s.stationBoundary
  let s := s.forPaths State.undoBerths
  let s := s.setHwy { s.hwy with cells := mapCells (fun _ e => e.boundary) s.hwy.cells }
  let s := s.forPaths State.backoffStep
  let s := s.mapPaths (fun _ p => p.cleanBoundary)
  let s := s.forPaths State.lossStep
  let s := s.forPaths State.sinkEffective
  let s := s.forPaths State.claimEffective
  let s := s.forPaths State.monitorStep
  let s := s.forPaths State.stepCells
  let s := s.forPaths State.stepSinkMove
  let s := s.forPaths State.stepBerths
  let s := s.forPaths State.beginBerths
  let s := s.forPaths State.adopt
  let s := s.mapPaths (fun _ p => p.localEnable)
  let s := if s.hwy.station = .joined then s.forPaths State.chooseCells else s
  s.mapPaths (fun _ p => p.restartMultiframe)

/-! ### The frame that begins -/

/-- The bytes of the cells of a run, as a sink received them, after the first (R139). -/
def laterCells (got : Sparse RxCell) (i : Nat) : Nat → List Byte
  | 0 => []
  | n + 1 =>
    (match Sparse.find got i with
     | some c =>
       if c.code = .maintenance ∨ c.code = .idle then List.replicate 90 0xFF else padTo 0xFF 90 (c.payload.take 90)
     | none => List.replicate 90 0xFF) ++ laterCells got (i + 1) n

/-- The content of a run as received in the frame that ended (R139). -/
def cellContent (k : Nat) (got : Sparse RxCell) : Content :=
  match Sparse.find got 0 with
  | none => { code := .normal, bytes := List.replicate 90 0xFF ++ laterCells got 1 (k - 1) }
  | some c =>
    match c.code with
    | .maintenance => { code := .maintenance, bytes := [] }
    | .idle => { code := .idle, bytes := [] }
    | code =>
      { code := code, bytes := padTo 0xFF (firstBytes code) (c.payload.take (firstBytes code)) ++ laterCells got 1 (k - 1) }

/-- The label character of a run as received goes into the label buffer (R90). -/
def PathRec.writeLabel (n : Nat) (p : PathRec) : PathRec :=
  match p.sk.copy, Sparse.find p.sk.rxCells 0 with
  | some _, some c => { p with labelBuf := p.labelBuf.set (n % 8) c.label }
  | _, _ => p

/-- HWY hands CBL the content of a run copied in the frame that ended (R86, R139). -/
def State.sinkContent (h : Nat) (s : State) : State :=
  match s.path h with
  | none => s
  | some p =>
    match p.sk.copy with
    | some _ => s.carryJoin h (cellContent p.k p.sk.rxCells)
    | none => s

/-- The runs that a SOURCE record drives in the frame that begins (R111, R153). -/
def PathRec.runs (p : PathRec) : List (Nat × Bool) :=
  if p.role = .source ∧ p.live then
    match p.hw.cells, p.hw.move with
    | some x, some m =>
      match m.phase, m.new with
      | .bridge, some y => [(x, false), (y, false)]
      | .retiring, some y => [(x, true), (y, false)]
      | _, _ => [(x, false)]
    | some x, none => [(x, false)]
    | none, _ => []
  else []

/-- The drives of one record (R88, R111). -/
def State.drivesOf (s : State) (h : Nat) (p : PathRec) : List Drive :=
  p.runs.map (fun r => { handle := h, tag := p.tag, k := p.k, first := r.1, retired := r.2, content := p.hw.content,
                         label := s.labelChar p s.ftm.frame })

/-- HWY takes what it drives in the frame that begins: only while JOINED (R101, R111). -/
def State.takeDrives (s : State) : State :=
  s.setHwy { s.hwy with
    passed := 0,
    drives := if s.hwy.station = .joined then s.ptb.paths.flatMap (fun e => s.drivesOf e.1 e.2) else [] }

/-- A record as the frame begins: its liveness, its place, what it copies, and what it gathers over the frame. A
capture is owed by a port whose path's decision point has moved (R23). -/
def State.freshPath (s : State) (p : PathRec) : PathRec :=
  { p with
    liveF := p.live, squelchF := p.sq.on, begun := true, decided := false, place := p.placeNow,
    srcBadSeen := s.notDelivering p, lmSeen := s.mislabelled p, slipSeen := false,
    hw := { p.hw with content := if p.live then p.hw.content else none },
    sk := { p.sk with copy := if p.receives then p.sk.cells else none, rxCells := [], maintSeen := false,
                      watchSeen := [] },
    sq := { p.sq with onSeen := p.sq.on } }

/-- A capture is owed at the next normal-form word (R23). -/
def State.owesCapture (s : State) (p : PathRec) : State :=
  match p.source with
  | some (.port q) =>
    if (s.rx q).align = .aligned ∧ p.place ≠ p.placeNow then s.setRx q { s.rx q with captureDue := true } else s
  | _ => s

/-- The ports and carriers as the frame begins (R22, R24, R28, R31). -/
def RxSide.fresh (bound : Bool) (r : RxSide) : RxSide :=
  { r with losSeen := r.los, loaSeen := !(r.align == .aligned), maintSeen := r.maint, raising := bound }

def Carrier.fresh (r : Carrier) : Carrier :=
  { r with losSeen := r.los, loaSeen := !(r.align == .aligned), delivered := r.delivering }

/-- Take the numbers below `n`, lowest first. -/
def State.upTo (n : Nat) (f : Nat → State → State) (s : State) : State := (List.range n).foldl (fun s i => f i s) s

/-- The frame that begins, with `n` the number of the frame that ended (R84 to R90, R111, R139). -/
def State.beginFrame (s : State) (n : Nat) : State :=
  let s := s.mapPaths (fun _ p => { p.writeLabel n with liveF := p.live, squelchF := p.sq.on })
  let s := s.takePlan.settleDebts
  let s := s.forPaths State.sinkContent
  let s := s.upTo 32 (fun q s => s.clientFrame q)
  let s := s.forPaths (fun h s => match s.path h with | some p => s.owesCapture p | none => s)
  let s := s.takeDrives
  let s := s.mapPaths (fun _ p => s.freshPath p)
  let s := s.mapPaths (fun _ p => { p with fil := p.fil.map (fun f =>
    { f with defectSeen := f.defectSeen || p.srcBadSeen }) })
  let s := s.upTo 32 (fun q s => s.setRx q ((s.rx q).fresh (s.rxPath q).isSome))
  s.upTo 4 (fun c s => s.setCarrier c (s.carrier c).fresh)

/-! ### A frame start (R9, R10) -/

/-- FTM starts a frame at an instant, with a number; a frame numbered 0 is a boundary (R9, R10). -/
def State.startFrame (s : State) (t num : Nat) : State :=
  let n := s.ftm.frame
  let s := s.endFrame
  let s := s.setFtm { s.ftm with frame := num, lastStart := t, refLostSeen := s.ftm.timer == .holdover }
  let s := s.ageQueue
  let s := if num = 0 then s.boundary else s
  s.beginFrame n

/-- The number of the next frame (R9). -/
def State.nextFrame (s : State) : Nat := (s.ftm.frame + 1) % 16

end Sys2Proof.Machine
end

