-- ==== Sys2Proof/Machine/Timing.lean ====
section
/-! DEFINITION. The frame timer's rows (R1 to R11): pulses, HOLDOVER, the return to TRACKING, frame starts, and device
reset. -/

namespace Sys2Proof.Machine

/-- The expected instant: the centre of the open window; absent when no window is open (R3, R5). -/
def Ftm.expected (f : Ftm) : Option Nat :=
  match f.timer with
  | .tracking => some (f.lastStart + f.period)
  | .holdover => f.anchor

/-- The instant lies within 1/16 frame of another (section 1.1.1). -/
def near (a b : Nat) : Bool := decide (a ≤ b + Config.windowPs) && decide (b ≤ a + Config.windowPs)

/-- The instant lies in the open window (R1). -/
def Ftm.inWindow (f : Ftm) (t : Nat) : Bool :=
  match f.expected with
  | some e => near t e
  | none => false

/-- Entry into HOLDOVER, with its MUTE request (R4). -/
def State.enterHoldover (s : State) : State :=
  let f := s.ftm
  (s.setFtm { f with
    timer := .holdover, miss := 0, good := 0, anchor := some (f.lastStart + f.period), mismatch := 0,
    realignPending := false, entries := satInc 65535 f.entries, lastPulse := none, restoreDue := false,
    refLostSeen := true }).mute

/-- A miss in TRACKING (R1, R3): the third in a row enters HOLDOVER. -/
def State.trackingMiss (s : State) : State :=
  if 3 ≤ s.ftm.miss + 1 then s.enterHoldover
  else s.setFtm { s.ftm with miss := s.ftm.miss + 1, lastPulse := none }

/-- The return to TRACKING at a pulse (R6): a frame start within 1/16 frame of the pulse moves to it; else the frame in
progress ends there. -/
def State.trackingReturn (s : State) (t : Nat) : State :=
  let f := s.ftm
  let s := s.setFtm { f with timer := .tracking, miss := 0, good := 0, anchor := none, lastPulse := some t }
  let s :=
    if t ≤ f.lastStart + Config.windowPs then s.setFtm { s.ftm with lastStart := t }
    else s.startFrame t s.nextFrame
  s.timingRestored

/-- The interval between two in-window pulses with no miss between them becomes P (R1). -/
def Ftm.measure (f : Ftm) (t : Nat) : Ftm :=
  { f with period := (match f.lastPulse with | some u => t - u | none => f.period), lastPulse := some t }

/-- A realignment at a marker pulse (R8). An indication still owed by an earlier realignment falls at this boundary
(R103), and is given before the MUTE request of this one; the MUTE request is taken before the frame that ends is
accounted and before the boundary (log 10: DESIGN CHOICE). -/
def State.realign (s : State) (t : Nat) : State :=
  let f := s.ftm
  let s := s.setFtm { f with mismatch := 0, realignPending := false, realigns := satInc 65535 f.realigns,
                             restoreDue := false }
  let s := if f.restoreDue then s.timingRestored else s
  let s := s.mute.startFrame t 0
  s.setFtm { s.ftm with restoreDue := true }

/-- What a marker does that does not realign (R7), with `num` the number of the frame that starts at the pulse. -/
def Ftm.examine (f : Ftm) (num : Nat) : Ftm :=
  if num = 0 then { f with mismatch := 0, realignPending := false }
  else { f with mismatch := satInc 2 f.mismatch, realignPending := decide (2 ≤ f.mismatch + 1) }

/-- An in-window pulse in TRACKING (R3, R7, R8). -/
def State.trackingPulse (s : State) (t : Nat) (marker : Bool) : State :=
  let s := s.setFtm { s.ftm.measure t with miss := 0 }
  let num := s.nextFrame
  if marker && s.ftm.realignPending && num != 0 then s.realign t
  else (s.setFtm (if marker then s.ftm.examine num else s.ftm)).startFrame t num

/-- An in-window pulse in HOLDOVER (R5, R6). -/
def State.holdoverPulse (s : State) (t : Nat) : State :=
  if 8 ≤ s.ftm.good + 1 then s.trackingReturn t
  else s.setFtm { s.ftm with good := s.ftm.good + 1, anchor := some (t + s.ftm.period), lastPulse := some t }

/-- IN_WINDOW_PULSE (R1, R3, R5 to R8). A pulse that does not lie in the open window is not in window. -/
def execInWindowPulse (t : Nat) (marker : Bool) (s : State) : Host.Outcome State Fault Refusal :=
  if s.ftm.inWindow t then
    .next (match s.ftm.timer with
      | .tracking => s.trackingPulse t marker
      | .holdover => s.holdoverPulse t)
  else .next s

/-- OUT_OF_WINDOW_PULSE (R1, R3, R5). The marker is not examined. A pulse that lies in the open window is not out of
window. -/
def execOutOfWindowPulse (t : Nat) (_marker : Bool) (s : State) : Host.Outcome State Fault Refusal :=
  if s.ftm.inWindow t then .next s
  else
    .next (match s.ftm.timer with
      | .tracking => s.trackingMiss
      | .holdover => s.setFtm { s.ftm with good := 0, anchor := some (t + s.ftm.period), lastPulse := none })

/-- MISSING_PULSE (R1, R3, R5): with no window open, nothing closes. -/
def execMissingPulse (s : State) : Host.Outcome State Fault Refusal :=
  .next (match s.ftm.timer with
    | .tracking => (s.startFrame (s.ftm.lastStart + s.ftm.period) s.nextFrame).trackingMiss
    | .holdover =>
      match s.ftm.anchor with
      | none => s
      | some a => s.setFtm { s.ftm with good := 0, anchor := some (a + s.ftm.period), lastPulse := none })

/-- HOLDOVER_ENTRY (R4): the event that brings the miss count to 3. -/
def execHoldoverEntry (s : State) : Host.Outcome State Fault Refusal :=
  .next (if s.ftm.timer = .tracking ∧ 3 ≤ s.ftm.miss + 1 then s.enterHoldover else s)

/-- TRACKING_RETURN (R6): the eighth consecutive in-window pulse in HOLDOVER. -/
def execTrackingReturn (t : Nat) (s : State) : Host.Outcome State Fault Refusal :=
  .next (if s.ftm.timer = .holdover ∧ 8 ≤ s.ftm.good + 1 ∧ s.ftm.inWindow t = true then s.trackingReturn t else s)

/-- FRAME_START (R5, R9, R10): FTM starts a frame one period after the last. -/
def execFrameStart (s : State) : Host.Outcome State Fault Refusal :=
  .next (s.startFrame (s.ftm.lastStart + s.ftm.period) s.nextFrame)

/-- DEVICE_RESET (R2 and the reset values of every block). The commands that wait are the sender's, and stay. -/
def execDeviceReset (s : State) : Host.Outcome State Fault Refusal :=
  .next { State.reset with pending := s.pending }

end Sys2Proof.Machine
end

