-- ==== Sys2Proof/Machine/Dispatch.lean ====
section
/-! DEFINITION. One arm per command: a direct call of its meaning. -/

namespace Sys2Proof.Machine

/-- The effect of a command on everything but the queue. -/
def exec (i : Instr) (s : State) : Host.Outcome State Fault Refusal :=
  match i with
  | .deviceReset => Sys2Proof.Machine.execDeviceReset s
  | .inWindowPulse t marker => Sys2Proof.Machine.execInWindowPulse t marker s
  | .outOfWindowPulse t marker => Sys2Proof.Machine.execOutOfWindowPulse t marker s
  | .missingPulse => Sys2Proof.Machine.execMissingPulse s
  | .holdoverEntry => Sys2Proof.Machine.execHoldoverEntry s
  | .trackingReturn t => Sys2Proof.Machine.execTrackingReturn t s
  | .frameStart => Sys2Proof.Machine.execFrameStart s
  | .decisionPoint h => Sys2Proof.Machine.execDecisionPoint h s
  | .windowEnd h => Sys2Proof.Machine.execWindowEnd h s
  | .storeRead h => Sys2Proof.Machine.execStoreRead h s
  | .inputStageWrite h => Sys2Proof.Machine.execInputStageWrite h s
  | .fillWrite h => Sys2Proof.Machine.execFillWrite h s
  | .clientByteReceived p b transition t => Sys2Proof.Machine.execClientByteReceived p b transition t s
  | .clientLosOnset p => Sys2Proof.Machine.execClientLosOnset p s
  | .clientAligned p maint t => Sys2Proof.Machine.execClientAligned p maint t s
  | .clientAlignmentLoss p => Sys2Proof.Machine.execClientAlignmentLoss p s
  | .carrierByteReceived c b transition => Sys2Proof.Machine.execCarrierByteReceived c b transition s
  | .carrierLosOnset c => Sys2Proof.Machine.execCarrierLosOnset c s
  | .carrierAligned c => Sys2Proof.Machine.execCarrierAligned c s
  | .carrierAlignmentLoss c => Sys2Proof.Machine.execCarrierAlignmentLoss c s
  | .carrierFrameReceived c f => Sys2Proof.Machine.execCarrierFrameReceived c f s
  | .scanStall => Sys2Proof.Machine.execScanStall s
  | .groupStart c b => Sys2Proof.Machine.execGroupStart c b s
  | .squelchLift h => Sys2Proof.Machine.execSquelchLift h s
  | .answerDrop => Sys2Proof.Machine.execAnswerDrop s
  | .controlBurst others noise => Sys2Proof.Machine.execControlBurst others noise s
  | .claim m => Sys2Proof.Machine.execClaim m s
  | .accept m => Sys2Proof.Machine.execAccept m s
  | .refuse m r => Sys2Proof.Machine.execRefuse m r s
  | .release m r => Sys2Proof.Machine.execRelease m r s
  | .highwayCell x others noise payload => Sys2Proof.Machine.execHighwayCell x others noise payload s
  | .backoffEnd h => Sys2Proof.Machine.execBackoffEnd h s
  | .claimExpiry h => Sys2Proof.Machine.execClaimExpiry h s
  | .cellLossFallback h => Sys2Proof.Machine.execCellLossFallback h s
  | .cleanCountExpiry h => Sys2Proof.Machine.execCleanCountExpiry h s
  | .silentCellExpiry x => Sys2Proof.Machine.execSilentCellExpiry x s
  | .reservationAgeExpiry x => Sys2Proof.Machine.execReservationAgeExpiry x s
  | .warmingEnd => Sys2Proof.Machine.execWarmingEnd s
  | .berthMoveSwitch h => Sys2Proof.Machine.execBerthMoveSwitch h s
  | .cellMoveSwitch h => Sys2Proof.Machine.execCellMoveSwitch h s
  | .sinkCellMoveSwitch h => Sys2Proof.Machine.execSinkCellMoveSwitch h s
  | .soakExpiry k o => Sys2Proof.Machine.execSoakExpiry k o s
  | .repeatExpiry k o => Sys2Proof.Machine.execRepeatExpiry k o s
  | .start p => Sys2Proof.Machine.execStart p s
  | .addPath p => Sys2Proof.Machine.execAddPath p s
  | .deletePath h => Sys2Proof.Machine.execDeletePath h s
  | .enablePath h => Sys2Proof.Machine.execEnablePath h s
  | .disablePath h => Sys2Proof.Machine.execDisablePath h s
  | .movePath h form carrier berth => Sys2Proof.Machine.execMovePath h form carrier berth s
  | .recentre h => Sys2Proof.Machine.execRecentre h s
  | .nudge h dir count => Sys2Proof.Machine.execNudge h dir count s
  | .squelch h flag => Sys2Proof.Machine.execSquelch h flag s
  | .readPath h => Sys2Proof.Machine.execReadPath h s
  | .readCells first count => Sys2Proof.Machine.execReadCells first count s
  | .labelScan p => Sys2Proof.Machine.execLabelScan p s
  | .sense => Sys2Proof.Machine.execSense s
  | .readConditions => Sys2Proof.Machine.execReadConditions s
  | .setReport p => Sys2Proof.Machine.execSetReport p s
  | .defaults => Sys2Proof.Machine.execDefaults s
  | .quiet => Sys2Proof.Machine.execQuiet s
  | .resume => Sys2Proof.Machine.execResume s
  | .readStation => Sys2Proof.Machine.execReadStation s
  | .dataWrite b => Sys2Proof.Machine.execDataWrite b s
  | .dataRead => Sys2Proof.Machine.execDataRead s
  | .statusWrite b => Sys2Proof.Machine.execStatusWrite b s
  | .parameterByte b => Sys2Proof.Machine.execParameterByte b s
  | .unknownCommand b => Sys2Proof.Machine.execUnknownCommand b s
  | .scanAbort => Sys2Proof.Machine.execScanAbort s
  | .clientLosClear p => Sys2Proof.Machine.execClientLosClear p s
  | .carrierLosClear c => Sys2Proof.Machine.execCarrierLosClear c s
  | .clientTransmitByte p => Sys2Proof.Machine.execClientTransmitByte p s

end Sys2Proof.Machine
end

