-- ==== Sys2Proof/Machine/Step.lean ====
section
/-! DEFINITION. The step: the command at the front of the queue, and on an empty queue the command port's own work. -/

namespace Sys2Proof.Machine

/-- On an empty queue CMD takes the oldest byte of its input FIFO, if there is one (R181; log 3: DESIGN CHOICE). -/
def idle (s : State) : State := s.takeOne

/-- The command at the front of the queue is taken, with the rest of the queue left waiting. -/
def step (s : State) : Host.Outcome State Fault Refusal :=
  match s.pending with
  | [] => .next (idle s)
  | c :: rest => exec c { s with pending := rest }

/-- The state with the command that a word spells at the front of its queue; no word spells one. -/
def State.withFetchWord (s : State) (nbits w : Nat) : State :=
  match decodeTableWord nbits w with
  | some c => { s with pending := c :: s.pending }
  | none => s

end Sys2Proof.Machine
end

