-- ==== Sys2Proof/Safety.lean ====
section
/-! DEFINITION. What holds of the part at every step: the invariants that statements cite, and the readiness of the
command port for a host's command. -/

namespace Sys2Proof.Machine

/-- The port takes a command at once: no byte waits, and no scan runs (R181 to R184). -/
def State.ready (s : State) : Prop := s.cmd.phase ≠ .execution ∧ s.cmd.inFifo = []

/-- The counts of a client receive side keep within their ranges (R18, R21). -/
abbrev RxSide.Ok (r : RxSide) : Prop := r.confirm ≤ 4 ∧ r.miss ≤ 4 ∧ r.quiet ≤ 32

/-- The counts of a carrier receiver keep within their ranges (R27 to R29). -/
abbrev Carrier.Ok (r : Carrier) : Prop := r.confirm ≤ 4 ∧ r.miss ≤ 4 ∧ r.quiet ≤ 32 ∧ r.ctlErr ≤ 65535

/-- The multiframes that a RUNNING monitor has left (R122); 0 in the other states. -/
def Monitor.remaining : Monitor → Nat
  | .running _ n => n
  | _ => 0

/-- Counters and queues keep within the ranges that their rules give (R2, R18, R21, R27 to R29, R101, R107, R110, R122,
R169, R174, R181). -/
def State.Bounded (s : State) : Prop :=
  s.ftm.frame < 16 ∧ s.ftm.mfCount < 65536 ∧ s.ftm.miss < 3 ∧ s.ftm.good < 8 ∧ s.ftm.mismatch ≤ 2 ∧
  s.ftm.entries ≤ 65535 ∧ s.ftm.realigns ≤ 65535 ∧
  s.hwy.warm ≤ 2 ∧ s.hwy.sendQ.length ≤ 8 ∧ s.hwy.mons.length = 2 ∧ s.hwy.msgCheck ≤ 65535 ∧
  s.cnd.queue.length ≤ 64 ∧ s.cmd.inFifo.length ≤ 16 ∧ s.cmd.outFifo.length ≤ 16 ∧
  (∀ e ∈ s.clp.rx, e.2.Ok) ∧ (∀ e ∈ s.crx.carriers, e.2.Ok) ∧
  (∀ e ∈ s.cnd.insts, e.2.soak ≤ 72 ∧ e.2.rep ≤ 72) ∧ (∀ r ∈ s.cnd.queue, r.dropped ≤ 127) ∧
  s.hwy.timeout ≤ 15 ∧ (∀ m ∈ s.hwy.mons, m.remaining ≤ 15)

/-- The command port and the scan engine agree: a scan is ACTIVE exactly in EXECUTION, a result is held exactly in
RESULT, and a command is in progress only in COMMAND (R159, R181 to R184). -/
def State.PortOk (s : State) : Prop :=
  (s.cmd.phase = .execution ↔ s.crx.scan.isSome = true) ∧
  (s.cmd.phase = .result ↔ s.cmd.outFifo ≠ []) ∧
  (s.cmd.phase = .result ↔ s.cmd.staged.isSome = true) ∧
  (s.cmd.phase ≠ .result → s.cmd.waiting = false) ∧
  (s.cmd.phase ≠ .command → s.cmd.inProgress = none)

/-- The station has not been started, or is MUTE. -/
def State.silent (s : State) : Bool := s.hwy.station == .unstarted || s.hwy.station == .mute

/-- The station state agrees with START, a silent station holds no message and no claim, and only a JOINED station
drives cells (R99 to R102, R111). -/
def State.StationOk (s : State) : Prop :=
  (s.cmd.started = true ↔ s.hwy.station ≠ .unstarted) ∧
  (s.cmd.started = true ↔ s.hwy.number.isSome = true) ∧
  (s.silent = true → s.hwy.sendQ = [] ∧ ∀ m ∈ s.hwy.mons, m = .idle) ∧
  (s.hwy.drives ≠ [] → s.hwy.station = .joined)

/-- The record takes no part on the highway: it claims, carries and receives no cells. -/
def PathRec.offHighway (p : PathRec) : Bool :=
  match p.role, p.state with
  | .source, .claiming | .source, .carrying | .source, .collided | .source, .moving => false
  | .sink, .accepted | .sink, .receiving | .sink, .moving => false
  | _, _ => true

/-- While the station is silent, no record takes part on the highway (R102, R144). -/
def State.MuteOk (s : State) : Prop :=
  s.silent = true → ∀ h p, s.path h = some p → p.offHighway = true

/-- The tables of the blocks are in their canonical form. -/
def State.TablesOk (s : State) : Prop :=
  Sparse.rising s.ptb.paths = true ∧ Sparse.rising s.ptb.rxBind = true ∧ Sparse.rising s.ptb.txBind = true ∧
  Sparse.wf [] s.ptb.feeds = true ∧ Sparse.wf RxSide.init s.clp.rx = true ∧ Sparse.wf TxSide.init s.clp.tx = true ∧
  Sparse.wf Carrier.init s.crx.carriers = true ∧ Sparse.rising s.cbl.owners = true ∧
  Sparse.wf CellEntry.free s.hwy.cells = true ∧ Sparse.rising s.cnd.insts = true ∧
  Sparse.rising s.cnd.settings = true ∧ Sparse.rising s.cbl.out = true

/-- The completion list holds at most one entry of a handle, each of a record that waits to be sensed and has that
code last, and every record that waits is in the list (R56). -/
def State.CompletionsOk (s : State) : Prop :=
  (s.ptb.completions.map (·.1)).Nodup ∧
  (∀ e ∈ s.ptb.completions, ∃ p, s.path e.1 = some p ∧ p.lastCompletion = some e.2) ∧
  (∀ h p, s.path h = some p → (p.completionPending = true ↔ s.listed h = true))

/-- A fill context keeps within its ranges (R61, R62, R75). -/
def Fil.Ok (k : Nat) (f : Fil) : Prop :=
  f.store.length ≤ capacity k ∧ f.spacing ≤ 255 ∧ f.wCount < 8000 ∧ f.slips ≤ 65535 ∧
  ∀ o, f.forced = some o → o.steps ≤ o.limit

/-- A record keeps within its ranges: size, store, carry queue and counts (R37, R56, R61, R86, R91, R121, R138). -/
def PathRec.Ok (p : PathRec) : Prop :=
  (p.k = 1 ∨ p.k = 4 ∨ p.k = 16) ∧ (p.fil.isSome = true ↔ p.role ≠ .sink) ∧ (∀ f, p.fil = some f → f.Ok p.k) ∧
  p.carry.length ≤ 2 ∧ p.superseded ≤ 255 ∧ p.sq.quiet ≤ 15 ∧ p.hw.attempt ≤ 4 ∧ p.hw.clean ≤ 64 ∧
  p.sk.check ≤ 255 ∧ p.sk.loss ≤ 1

def State.PathsOk (s : State) : Prop := ∀ h p, s.path h = some p → p.Ok

/-! ### What an event changes, as relations between two states -/

/-- No block but HWY and PTB differs. -/
def sameButPaths (s u : State) : Prop :=
  u.ftm = s.ftm ∧ u.clp = s.clp ∧ u.crx = s.crx ∧ u.fil = s.fil ∧ u.cbl = s.cbl ∧ u.cnd = s.cnd ∧ u.cmd = s.cmd ∧
  u.pending = s.pending

/-- Every record but that of a handle is as it was. -/
def sameOthers (h : Nat) (s u : State) : Prop := ∀ g, g ≠ h → u.path g = s.path g

/-- Every entry of the cell map outside a run is as it was. -/
def sameOutside (first k : Nat) (s u : State) : Prop := ∀ x, ¬ (first ≤ x ∧ x < first + k) → u.entry x = s.entry x

/-- The runs that HWY drives for a path in this frame, each with whether it is the old run after the switch (R111,
R153). -/
def State.drivesFor (s : State) (h : Nat) : List (Nat × Bool) :=
  (s.hwy.drives.filter (fun d => d.handle == h)).map (fun d => (d.first, d.retired))

/-- A message as it joins the send queue (R107). -/
def freshMsg (m : Msg) : QueuedMsg := { msg := m, age := 0 }

/-- The RELEASE that a record of this station sends for a run (R109). -/
def releaseOf (s : State) (p : PathRec) (x : Nat) (r : ReleaseReason) : Msg :=
  .release { sender := s.self, addressee := p.remote.getD 0, tag := p.tag, first := x, size := p.k, move := false } r

/-- The fields of a SOURCE record that MUTE leaves (R144). -/
def SrcHw.muted (w : SrcHw) : SrcHw :=
  { w with cells := none, acceptHeard := false, clean := 0, cleanRun := false, move := none }

/-- The fields of a SINK record that has gone to LISTENING (R132, R141, R144). -/
def SnkHw.listening (k : SnkHw) : SnkHw :=
  { k with cells := none, status := none, missing := [], check := 0, loss := 0, watch := none, move := none }

/-- What MUTE makes of each record (R102, R144). -/
def PathRec.muted (p q : PathRec) : Prop :=
  q.tag = p.tag ∧ q.role = p.role ∧
  match p.role with
  | .loc => q = p
  | .source => if p.offHighway then q = p else q.state = .waiting ∧ q.hw = p.hw.muted
  | .sink =>
    if p.offHighway then q = { p with sk := { p.sk with watch := none } }
    else q.state = .listening ∧ q.sk = p.sk.listening

/-- What MUTE, and the boundary taken after it, leave of a record that took part on the highway (R8, R102, R144). -/
def PathRec.mutedAtBoundary (p q : PathRec) : Prop :=
  q.tag = p.tag ∧ q.role = p.role ∧
  match p.role with
  | .loc => True
  | .source =>
    q.state = .waiting ∧ q.hw.cells = none ∧ q.hw.move = none ∧ q.hw.acceptHeard = false ∧ q.hw.clean = 0 ∧
    q.hw.attempt = p.hw.attempt ∧ q.hw.refusal = p.hw.refusal
  | .sink =>
    q.state = .listening ∧ q.sk.cells = none ∧ q.sk.status = none ∧ q.sk.move = none ∧ q.sk.missing = [] ∧
    q.sk.loss = 0 ∧ q.sk.check = 0 ∧ q.sk.watch = none

/-- Nothing but the record's own fields acts on it at a boundary: no monitor is bound to it, no undo is owed, and no
queued ACCEPT names its tag. -/
def State.settled (s : State) (h : Nat) (p : PathRec) : Prop :=
  s.path h = some p ∧ (∀ m ∈ s.hwy.mons, m.isFor h = false) ∧ p.undo = none ∧
  ∀ q ∈ s.hwy.sendQ, ∀ b, q.msg = .accept b → b.tag ≠ p.tag

/-- What a MUTE request does to a station (R99, R102, R144), and that nothing else changes but the timer. -/
def muteTaken (s u : State) : Prop :=
  u.hwy.doubt = true ∧ u.clp = s.clp ∧ u.crx = s.crx ∧ u.fil = s.fil ∧ u.cbl = s.cbl ∧ u.cnd = s.cnd ∧ u.cmd = s.cmd ∧
  u.pending = s.pending ∧
  (s.silent = true → u.hwy = { s.hwy with doubt := true } ∧ u.ptb = s.ptb) ∧
  (s.silent = false → u.hwy.station = .mute ∧ u.hwy.sendQ = [] ∧ u.hwy.mons = [.idle, .idle] ∧ u.hwy.drives = [] ∧
    ∀ h p, s.path h = some p → ∃ q, u.path h = some q ∧ p.muted q)

/-- A frame has started at an instant, numbered as R9 states; the timer's state that a frame start does not name, and
the blocks that take no part in one, are as they were. -/
def State.frameStarted (u s : State) (t : Nat) : Prop :=
  u.ftm.frame = (s.ftm.frame + 1) % 16 ∧ u.ftm.lastStart = t ∧
  u.ftm.mfCount = (if (s.ftm.frame + 1) % 16 = 0 ∧ s.cmd.started = true then (s.ftm.mfCount + 1) % 65536
                   else s.ftm.mfCount) ∧
  u.ftm.timer = s.ftm.timer ∧ u.ftm.good = s.ftm.good ∧ u.ftm.anchor = s.ftm.anchor ∧
  u.ftm.mismatch = s.ftm.mismatch ∧ u.ftm.realignPending = s.ftm.realignPending ∧ u.ftm.entries = s.ftm.entries ∧
  u.ftm.realigns = s.ftm.realigns ∧
  u.fil = s.fil ∧ u.cmd = s.cmd ∧ u.pending = s.pending ∧ u.clp.sizing = s.clp.sizing ∧ u.crx.scan = s.crx.scan ∧
  u.cbl.holdoff = s.cbl.holdoff ∧ u.cbl.guard = s.cbl.guard ∧ u.hwy.number = s.hwy.number ∧
  u.hwy.timeout = s.hwy.timeout ∧ u.hwy.block = s.hwy.block ∧
  u.ptb.feeds = s.ptb.feeds ∧ u.ptb.rxBind = s.ptb.rxBind ∧ u.ptb.txBind = s.ptb.txBind ∧ u.handles = s.handles

/-! ### Runs of byte times -/

/-- What a transmit side sends in `n` byte times, and the side after them (R25, R26). -/
def TxSide.run (k : Nat) : Nat → TxSide → List Byte × TxSide
  | 0, t => ([], t)
  | n + 1, t => (((t.sendByte k).out.toList ++ ((t.sendByte k).run k n).1), ((t.sendByte k).run k n).2)

/-- What a receive side delivers of a run of bytes, and the side after them (R18 to R22). -/
def RxSide.run (k : Nat) : List Byte → RxSide → List Byte × RxSide
  | [], r => ([], r)
  | b :: l, r =>
    ((if (r.byte k b).2.2 then [b] else []) ++ ((r.byte k b).1.run k l).1, ((r.byte k b).1.run k l).2)

/-- The bytes that the host reads at the data address in `n` reads, and the port after them (R181). -/
def Cmd.reads : Nat → Cmd → List Byte × Cmd
  | 0, c => ([], c)
  | n + 1, c => (c.read.cpData :: (c.read.reads n).1, (c.read.reads n).2)

/-- The bytes are taken in order (R182). -/
def State.takeBytes (s : State) (l : List Byte) : State := l.foldl (fun s b => s.takeByte b) s

/-- What eight received frames, with the indexes from `x`, make of a capture record (R32, R33). -/
def Capture.frames (x : Nat) : List RxBerth → Capture → Capture
  | [], r => r
  | b :: l, r => (r.frame x (some b)).frames (x + 1) l

end Sys2Proof.Machine
end

