-- ==== Sys2Proof/WellFormed.lean ====
section
/-! DEFINITION. Which commands are well formed: operands that name what the part has, messages that pass R110, frames
and payloads of the right size, and host commands whose fields fit their bytes. -/

namespace Sys2Proof

/-- A received frame as R12 and R13 lay it out: berth numbers within the carrier and strictly rising, 91 payload
positions in each. -/
def RxFrame.wf (f : RxFrame) : Bool :=
  f.pattern.length == 4 && f.berths.all (fun e => e.1 < Config.berths && e.2.payload.length == 91) &&
  (f.berths.zip f.berths.tail).all (fun e => e.1.1 < e.2.1)

/-- Which commands are well formed. A command that is not still has a meaning: a fault for an object the part does
not have, and otherwise the effect its rule gives. -/
def Instr.wf : Instr → Bool
  | .clientByteReceived p _ _ _ | .clientLosOnset p | .clientAligned p _ _ | .clientAlignmentLoss p | .clientLosClear p
  | .clientTransmitByte p => p < 32
  | .carrierByteReceived c _ _ | .carrierLosOnset c | .carrierAligned c | .carrierAlignmentLoss c
  | .carrierLosClear c => c < 4
  | .carrierFrameReceived c f => c < 4 && f.wf
  | .groupStart c b => c < 4 && b < Config.berths
  | .claim m => (Msg.claim m).passes
  | .accept m => (Msg.accept m).passes
  | .refuse m r => (Msg.refuse m r).passes
  | .release m r => (Msg.release m r).passes
  | .highwayCell x _ _ payload => x < Config.cells && payload.length == 91
  | .silentCellExpiry x | .reservationAgeExpiry x => x < Config.cells
  | .start p => (HostCmd.start p).fits
  | .addPath p => (HostCmd.addPath p).fits
  | .deletePath h | .enablePath h | .disablePath h | .recentre h | .readPath h => h < 16384
  | .movePath h form c b => (HostCmd.movePath h form c b).fits
  | .nudge h dir count => (HostCmd.nudge h dir count).fits
  | .squelch h flag => (HostCmd.squelch h flag).fits
  | .readCells first count => (HostCmd.readCells first count).fits
  | .labelScan p => (HostCmd.labelScan p).fits
  | .setReport p => (HostCmd.setReport p).fits
  | .parameterByte b => b < 0x80
  | .unknownCommand b => 0x80 ≤ b && (paramCount b.toNat).isNone
  | .deviceReset | .inWindowPulse _ _ | .outOfWindowPulse _ _ | .missingPulse | .holdoverEntry | .trackingReturn _
  | .frameStart | .decisionPoint _ | .windowEnd _ | .storeRead _ | .inputStageWrite _ | .fillWrite _ | .scanStall
  | .squelchLift _ | .answerDrop | .controlBurst _ _ | .backoffEnd _ | .claimExpiry _ | .cellLossFallback _
  | .cleanCountExpiry _ | .warmingEnd | .berthMoveSwitch _ | .cellMoveSwitch _ | .sinkCellMoveSwitch _
  | .soakExpiry _ _ | .repeatExpiry _ _ | .sense | .readConditions | .defaults | .quiet | .resume | .readStation
  | .dataWrite _ | .dataRead | .statusWrite _ | .scanAbort => true

end Sys2Proof
end

