-- ==== Sys2Proof/Certificates/Slice0/Obligations.lean ====
section
/-! DEFINITION. The statements for the provers. Each names the rules of spec/ it formalises; OBLIGATIONS.json lists
them. -/

open Sys2Proof Sys2Proof.Machine

/-! ### The step and device reset -/

/-- A step takes the command at the front of the queue and runs it with the queue's rest; on an empty queue the command
port takes one waiting byte, and with none waiting nothing changes (the idle step is the model's choice: log 3). -/
def Obligations.StepRunsFrontCommand : Prop :=
  ∀ (s : State),
    (∀ (c : Instr) (rest : List Instr), s.pending = c :: rest → step s = exec c { s with pending := rest }) ∧
    (s.pending = [] → s.cmd.inFifo = [] → step s = .next s) ∧
    (∀ b r, s.pending = [] → s.cmd.inFifo = b :: r →
      step s = .next ((s.setCmd { s.cmd with inFifo := r }).takeByte b))

/-- DEVICE_RESET leaves the state of R2, R16, R18, R25, R27, R84, R99, R159, R174 and R180 after device reset, and the
waiting commands (log 16). -/
def Obligations.DeviceResetValues : Prop :=
  (∀ s : State, exec .deviceReset s = .next { State.reset with pending := s.pending }) ∧
  (let f := State.reset.ftm
   f.timer = .holdover ∧ f.frame = 0 ∧ f.mfCount = 0 ∧ f.period = 125000000 ∧ f.miss = 0 ∧ f.good = 0 ∧
   f.anchor = none ∧ f.mismatch = 0 ∧ f.realignPending = false ∧ f.entries = 0 ∧ f.realigns = 0) ∧
  (∀ p, State.reset.portSize p = some 1 ∧ (State.reset.rx p).align = .hunt ∧ (State.reset.rx p).confirm = 0 ∧
    (State.reset.rx p).miss = 0 ∧ (State.reset.rx p).los = false ∧ (State.reset.tx p).data = false) ∧
  (∀ c, (State.reset.carrier c).align = .hunt ∧ (State.reset.carrier c).confirm = 0 ∧
    (State.reset.carrier c).miss = 0 ∧ (State.reset.carrier c).los = false) ∧
  State.reset.crx.scan = none ∧ (∀ h, State.reset.path h = none) ∧ State.reset.ptb.completions = [] ∧
  (∀ c b, State.reset.owner c b = none) ∧
  State.reset.hwy.station = .unstarted ∧ State.reset.hwy.sendQ = [] ∧ (∀ x, State.reset.entry x = .free) ∧
  State.reset.hwy.mons = [.idle, .idle] ∧
  State.reset.cnd.queue = [] ∧ State.reset.cnd.quiet = false ∧
  State.reset.cmd.phase = .command ∧ State.reset.cmd.inProgress = none ∧ State.reset.cmd.inFifo = [] ∧
  State.reset.cmd.staged = none ∧ State.reset.cmd.outFifo = [] ∧ State.reset.cmd.waiting = false ∧
  State.reset.cmd.started = false ∧ State.reset.intLine = false

/-- Every invariant below holds after device reset. -/
def Obligations.ResetMeetsInvariants : Prop :=
  State.reset.Bounded ∧ State.reset.PortOk ∧ State.reset.StationOk ∧ State.reset.MuteOk ∧ State.reset.TablesOk ∧
  State.reset.CompletionsOk ∧ State.reset.PathsOk

/-- Every well-formed command answers a next state; the part stops for nothing but a port, carrier, berth or cell that
it does not have (the model's choice: log 6). -/
def Obligations.WellFormedCommandsAnswer : Prop :=
  (∀ (c : Instr) (s : State), c.wf = true → ∃ t, exec c s = .next t) ∧
  (∀ (s : State) (p : Nat), 32 ≤ p → exec (.clientLosOnset p) s = .fault (.noSuchPort p)) ∧
  (∀ (s : State) (c : Nat), 4 ≤ c → exec (.carrierLosOnset c) s = .fault (.noSuchCarrier c)) ∧
  (∀ (s : State) (c b : Nat), c < 4 → 432 ≤ b → exec (.groupStart c b) s = .fault (.noSuchBerth b)) ∧
  (∀ (s : State) (x : Nat), 1024 ≤ x → exec (.silentCellExpiry x) s = .fault (.noSuchCell x))

/-! ### The frame timer -/

/-- In HOLDOVER the window follows the pulses: the three classifications of R5, each changing nothing else. -/
def Obligations.HoldoverHuntsReference : Prop :=
  ∀ (s : State) (t : Nat) (m : Bool), s.ftm.timer = .holdover →
    (s.ftm.anchor = none → exec (.outOfWindowPulse t m) s =
      .next (s.setFtm { s.ftm with good := 0, anchor := some (t + s.ftm.period), lastPulse := none })) ∧
    (∀ a, s.ftm.anchor = some a →
      (¬ (t ≤ a + 7812500 ∧ a ≤ t + 7812500) → exec (.outOfWindowPulse t m) s =
        .next (s.setFtm { s.ftm with good := 0, anchor := some (t + s.ftm.period), lastPulse := none })) ∧
      (t ≤ a + 7812500 ∧ a ≤ t + 7812500 → s.ftm.good + 1 < 8 → exec (.inWindowPulse t m) s =
        .next (s.setFtm { s.ftm with good := s.ftm.good + 1, anchor := some (t + s.ftm.period), lastPulse := some t })) ∧
      exec .missingPulse s =
        .next (s.setFtm { s.ftm with good := 0, anchor := some (a + s.ftm.period), lastPulse := none }))

/-- In TRACKING an out-of-window pulse counts a miss and moves no frame start; the third miss enters HOLDOVER with the
effects of R4 and raises the MUTE request, whose effects are those of R102 and R144. That HOLDOVER_ENTRY brings this entry
about is the model's choice (log 2). A third miss by MISSING_PULSE starts the frame that FRAME_START starts, and enters
HOLDOVER from the state it leaves. -/
def Obligations.MissesEnterHoldover : Prop :=
  ∀ (s : State) (i : Instr), s.ftm.timer = .tracking →
    ((∃ t m, i = .outOfWindowPulse t m ∧ s.ftm.inWindow t = false) →
      s.ftm.miss + 1 < 3 → exec i s = .next (s.setFtm { s.ftm with miss := s.ftm.miss + 1, lastPulse := none })) ∧
    ((i = .holdoverEntry ∨ ∃ t m, i = .outOfWindowPulse t m ∧ s.ftm.inWindow t = false) → 3 ≤ s.ftm.miss + 1 →
      ∃ u : State, exec i s = .next u ∧
        u.ftm = { s.ftm with timer := .holdover, miss := 0, good := 0, anchor := some (s.ftm.lastStart + s.ftm.period),
                             mismatch := 0, realignPending := false, entries := min 65535 (s.ftm.entries + 1),
                             lastPulse := none, restoreDue := false, refLostSeen := true } ∧
        muteTaken s u) ∧
    (s.TablesOk → 3 ≤ s.ftm.miss + 1 → ∃ v u : State, exec .frameStart s = .next v ∧ exec .missingPulse s = .next u ∧
      v.frameStarted s (s.ftm.lastStart + s.ftm.period) ∧ v.ftm.period = s.ftm.period ∧
      u.ftm = { v.ftm with timer := .holdover, miss := 0, good := 0, anchor := some (v.ftm.lastStart + v.ftm.period),
                           mismatch := 0, realignPending := false, entries := min 65535 (v.ftm.entries + 1),
                           lastPulse := none, restoreDue := false, refLostSeen := true } ∧
      muteTaken v u)

/-- The three events that start a frame: FRAME_START, an in-window pulse and a window that closes empty in TRACKING. The
frame number, the multiframe count and the instant are those of R3, R5 and R9, and the timer's other state is kept. That
FRAME_START is taken in either timer state, and the instants' unit, are the model's choice (logs 1 and 17). At a
boundary the pending enable of a LOCAL record makes it CARRYING, and at no other frame start (R50); and at each frame
start HWY takes the runs it drives: none unless the station is JOINED, and then those of the live SOURCE records, both
runs of a move in BRIDGE and RETIRING (R111, R153). -/
def Obligations.FrameStartsAdvanceTimer : Prop :=
  ∀ s : State, s.TablesOk →
    (∃ u : State, exec .frameStart s = .next u ∧ u.frameStarted s (s.ftm.lastStart + s.ftm.period) ∧
      u.ftm.miss = s.ftm.miss ∧ u.ftm.period = s.ftm.period) ∧
    (∀ t, s.ftm.timer = .tracking → s.ftm.inWindow t = true →
      ∃ u : State, exec (.inWindowPulse t false) s = .next u ∧ u.frameStarted s t ∧ u.ftm.miss = 0 ∧
        u.ftm.period = (match s.ftm.lastPulse with | some v => t - v | none => s.ftm.period)) ∧
    (s.ftm.timer = .tracking → s.ftm.miss + 1 < 3 →
      ∃ u : State, exec .missingPulse s = .next u ∧ u.frameStarted s (s.ftm.lastStart + s.ftm.period) ∧
        u.ftm.miss = s.ftm.miss + 1 ∧ u.ftm.period = s.ftm.period) ∧
    (∀ h p, s.path h = some p → p.role = .loc → p.enablePending = true → p.state = .defined →
      ∃ (u : State) (q : PathRec), exec .frameStart s = .next u ∧ u.path h = some q ∧
        ((s.ftm.frame + 1) % 16 = 0 → q.state = .carrying ∧ q.enablePending = false ∧ q.liveF = true) ∧
        ((s.ftm.frame + 1) % 16 ≠ 0 → q.state = .defined ∧ q.enablePending = true ∧ q.liveF = false)) ∧
    (∃ u : State, exec .frameStart s = .next u ∧ (u.hwy.station ≠ .joined → u.hwy.drives = []) ∧
      (∀ d ∈ u.hwy.drives, ∃ p, u.path d.handle = some p ∧ p.role = .source ∧ p.live = true ∧ d.tag = p.tag ∧ d.k = p.k) ∧
      (u.hwy.station = .joined → ∀ h p x, u.path h = some p → p.role = .source → p.live = true → p.hw.cells = some x →
        (p.hw.move = none → (u.drivesFor h) = [(x, false)]) ∧
        (∀ m y, p.hw.move = some m → m.new = some y →
          (m.phase = .bridge → (u.drivesFor h) = [(x, false), (y, false)]) ∧
          (m.phase = .retiring → (u.drivesFor h) = [(x, true), (y, false)]) ∧
          (m.phase ≠ .bridge → m.phase ≠ .retiring → (u.drivesFor h) = [(x, false)]))))

/-- The multiframe marker of an in-window pulse in TRACKING: a match, a mismatch, and the realignment at the marker after
two mismatches (R7, R8), which leaves a station in WARMING, JOINED or MUTE in MUTE, and its records as MUTE leaves them
(R102, R144). The timing-restored indication that a realignment owes is given at the next boundary, also at one that is a
realignment (R8, R103). That the indication owed comes before the MUTE request, and the MUTE request before the boundary,
is the model's choice (log 10). -/
def Obligations.MarkerExaminedAndRealigned : Prop :=
  ∀ (s : State) (t : Nat), s.ftm.timer = .tracking → s.ftm.inWindow t = true →
    ∃ u : State, exec (.inWindowPulse t true) s = .next u ∧ u.ftm.timer = .tracking ∧ u.ftm.lastStart = t ∧ u.ftm.miss = 0 ∧
      (s.ftm.frame % 16 = 15 →
        u.ftm.frame = 0 ∧ u.ftm.mismatch = 0 ∧ u.ftm.realignPending = false ∧ u.ftm.realigns = s.ftm.realigns ∧
        (s.ftm.restoreDue = true → u.ftm.restoreDue = false ∧ u.hwy.doubt = false ∧
          (s.hwy.station = .mute → u.hwy.station = .warming ∧ u.hwy.warm = 0))) ∧
      (s.ftm.frame % 16 ≠ 15 → s.ftm.realignPending = false →
        u.ftm.frame = (s.ftm.frame + 1) % 16 ∧ u.ftm.mismatch = min 2 (s.ftm.mismatch + 1) ∧
        u.ftm.realignPending = decide (2 ≤ s.ftm.mismatch + 1) ∧ u.ftm.realigns = s.ftm.realigns) ∧
      (s.ftm.frame % 16 ≠ 15 → s.ftm.realignPending = true →
        u.ftm.frame = 0 ∧ u.ftm.mismatch = 0 ∧ u.ftm.realignPending = false ∧
        u.ftm.realigns = min 65535 (s.ftm.realigns + 1) ∧ u.ftm.restoreDue = true ∧ u.hwy.doubt = true ∧
        (s.silent = false → u.hwy.station = .mute ∧ u.MuteOk) ∧
        (s.silent = true → u.hwy.station = s.hwy.station) ∧
        (s.hwy.station = .mute → s.ftm.restoreDue = true → u.hwy.warm = 0) ∧
        (s.TablesOk → s.silent = false → ∀ h p, s.path h = some p → p.offHighway = false →
          ∃ q, u.path h = some q ∧ p.mutedAtBoundary q) ∧
        (s.cmd.started = true → u.ftm.mfCount = (s.ftm.mfCount + 1) % 65536))

/-- The eighth in-window pulse in HOLDOVER returns to TRACKING (R6), and the timing-restored indication ends MUTE
(R103). -/
def Obligations.EighthPulseReturnsToTracking : Prop :=
  ∀ (s : State) (t : Nat) (i : Instr), s.ftm.timer = .holdover → s.ftm.inWindow t = true → 8 ≤ s.ftm.good + 1 →
    (i = .trackingReturn t ∨ ∃ m, i = .inWindowPulse t m) →
    ∃ u : State, exec i s = .next u ∧ u.ftm.timer = .tracking ∧ u.ftm.miss = 0 ∧ u.ftm.good = 0 ∧ u.ftm.anchor = none ∧
      u.ftm.lastStart = t ∧ u.ftm.period = s.ftm.period ∧ u.ftm.entries = s.ftm.entries ∧ u.hwy.doubt = false ∧
      (t ≤ s.ftm.lastStart + 7812500 → u.ftm.frame = s.ftm.frame ∧ u.ftm.mfCount = s.ftm.mfCount ∧
        u.clp = s.clp ∧ u.crx = s.crx ∧ u.cbl = s.cbl ∧ u.ptb = s.ptb ∧ u.cnd = s.cnd ∧
        (s.hwy.station = .mute → u.hwy.station = .warming ∧ u.hwy.warm = 0)) ∧
      (¬ t ≤ s.ftm.lastStart + 7812500 → u.ftm.frame = (s.ftm.frame + 1) % 16 ∧
        (s.hwy.station = .mute → u.hwy.station = .warming ∧ u.hwy.warm = 0)) ∧
      u.fil = s.fil ∧ u.cmd = s.cmd ∧ u.pending = s.pending

/-! ### Client ports and carrier receivers -/

/-- The four events of a client receive side that R19 to R21 and R23 name, each on a used port in the state it needs; in
any other state, and on an unused port, nothing changes. -/
def Obligations.ClientReceiveEvents : Prop :=
  ∀ (s : State) (p : Nat) (m : Bool) (t : Nat), p < 32 →
    (s.used p = true → (s.rx p).los = false → exec (.clientLosOnset p) s =
      .next ((s.putRx p { s.rx p with align := .hunt, confirm := 0, miss := 0, pos := none, held := none,
                                      maint := false, los := true, quiet := 32 }).markPort p)) ∧
    (s.used p = true → (s.rx p).los = true → exec (.clientLosClear p) s =
      .next ((s.putRx p { s.rx p with los := false, quiet := 0, held := none }).markPort p)) ∧
    (s.used p = true → (s.rx p).align = .confirm → (s.rx p).confirm = 3 → exec (.clientAligned p m t) s =
      .next (((s.putRx p { s.rx p with align := .aligned, confirm := 4, miss := 0, pos := some 2, held := none,
                                       maint := m, captureDue := (s.rx p).captureDue && m }).capture p t).markPort p)) ∧
    (s.used p = true → (s.rx p).align = .aligned → (s.rx p).miss = 3 → exec (.clientAlignmentLoss p) s =
      .next ((s.putRx p { s.rx p with align := .hunt, confirm := 0, miss := 0, pos := none, held := none,
                                      maint := false }).markPort p)) ∧
    (s.used p = false → exec (.clientLosOnset p) s = .next s ∧ exec (.clientLosClear p) s = .next s ∧
      exec (.clientAligned p m t) s = .next s ∧ exec (.clientAlignmentLoss p) s = .next s)

/-- An ALIGNED port that receives a client frame in the normal form delivers each data byte to the store of the path it
sources, as it arrives; nothing else of any path, and no other port, changes (R22, R64). -/
def Obligations.AlignedPortDeliversDataByte : Prop :=
  ∀ (s : State) (p h : Nat) (b : Byte) (t n : Nat) (q : PathRec) (f : Fil),
    p < 32 → s.used p = true → (s.rx p).align = .aligned → (s.rx p).los = false → (s.rx p).maint = false →
    (s.rx p).pos = some n → 2 ≤ n → s.rxPath p = some h → s.path h = some q → q.fil = some f → q.source = some (.port p) →
    s.portAgrees p q.k = true → f.dropNext = 0 → f.store.length < capacity q.k →
    ∃ u : State, exec (.clientByteReceived p b true t) s = .next u ∧
      u.path h = some { q with fil := some { f with store := f.store ++ [b] } } ∧ sameOthers h s u ∧
      (u.rx p).pos = some (if n + 1 < 2 + 90 * s.txSize p then n + 1 else 0) ∧ (u.rx p).align = .aligned ∧
      (∀ x, x ≠ p → u.rx x = s.rx x) ∧ u.clp.tx = s.clp.tx ∧ u.ftm = s.ftm ∧ u.crx = s.crx ∧ u.fil = s.fil ∧
      u.cbl = s.cbl ∧ u.hwy = s.hwy ∧ u.cnd = s.cnd ∧ u.cmd = s.cmd ∧ u.pending = s.pending

/-- A client transmit side in DATA sends, for 90k data bytes handed, the normal-form word and then the bytes in order;
and an aligned receive side at its expected word position delivers exactly those bytes and is at its next expected
position (R14, R20, R22, R26). -/
def Obligations.ClientFrameRoundTrip : Prop :=
  ∀ (k : Nat) (l rest : List Byte) (t : TxSide) (r : RxSide),
    0 < k → l.length = 90 * k → t.data = true → t.count = 0 → t.word = 0 → t.handed = l ++ rest →
    r.align = .aligned → r.pos = some 0 →
    (t.run k (2 + 90 * k)).1 = wordFirst :: wordNormal :: l ∧
    (t.run k (2 + 90 * k)).2.handed = rest ∧ (t.run k (2 + 90 * k)).2.count = 0 ∧ (t.run k (2 + 90 * k)).2.word = 0 ∧
    (r.run k (t.run k (2 + 90 * k)).1).1 = l ∧ (r.run k (t.run k (2 + 90 * k)).1).2.pos = some 0 ∧
    (r.run k (t.run k (2 + 90 * k)).1).2.align = .aligned ∧ (r.run k (t.run k (2 + 90 * k)).1).2.miss = 0

/-- In FILL a transmit side sends, from a frame start, one fill frame: the maintenance-form word and 90k bytes of 0xFF,
and then nothing until the next frame start; CLIENT_TRANSMIT_BYTE sends one byte of either state (R25, R26). -/
def Obligations.ClientTransmitSends : Prop :=
  (∀ (k : Nat) (t : TxSide), t.data = false → t.fillPos = 0 →
    (t.run k (2 + 90 * k)).1 = wordFirst :: wordMaint :: List.replicate (90 * k) 0xFF ∧
    (t.run k (2 + 90 * k)).2.sendByte k = (t.run k (2 + 90 * k)).2) ∧
  (∀ (s : State) (p : Nat), p < 32 → exec (.clientTransmitByte p) s = .next (s.setTx p ((s.tx p).sendByte (s.txSize p))))

/-- The events of a carrier receiver that R27 and R28 name, each in the state it needs: loss and return of the signal,
the fourth confirming pattern, and the fourth missing one, after which every berth holds the code it held (R29) and none
has been decoded since the carrier became ALIGNED (R31). The frame rows that name a consequence act as log 2 says. -/
def Obligations.CarrierReceiveEvents : Prop :=
  ∀ (s : State) (c : Nat), c < 4 →
    ((s.carrier c).los = false → (s.carrier c).align ≠ .aligned → exec (.carrierLosOnset c) s =
      .next (s.putCarrier c { s.carrier c with align := .hunt, confirm := 0, miss := 0, pos := none, held := [],
                                               los := true, quiet := 32 })) ∧
    ((s.carrier c).los = true → exec (.carrierLosClear c) s =
      .next (s.putCarrier c { s.carrier c with los := false, quiet := 0, held := [] })) ∧
    ((s.carrier c).align = .confirm → (s.carrier c).confirm = 3 → exec (.carrierAligned c) s =
      .next (s.putCarrier c { s.carrier c with align := .aligned, confirm := 4, miss := 0, pos := some 4, held := [] })) ∧
    (s.TablesOk → (s.carrier c).align = .aligned → (s.carrier c).miss = 3 → ∃ u : State, exec (.carrierAlignmentLoss c) s = .next u ∧
      (u.carrier c).align = .hunt ∧ (u.carrier c).confirm = 0 ∧ (u.carrier c).miss = 0 ∧
      (∀ b, u.codeHeld c b = s.codeHeld c b) ∧ (u.carrier c).decoded = 0 ∧ (∀ d, d ≠ c → u.carrier d = s.carrier d) ∧
      u.ftm = s.ftm ∧ u.clp = s.clp ∧ u.fil = s.fil ∧ u.cbl = s.cbl ∧ u.hwy = s.hwy ∧ u.cnd = s.cnd ∧
      (∀ sc, s.crx.scan = some sc → sc.par.carrier = c → u.crx.scan = none ∧ u.cmd.phase = .result ∧
        u.cmd.waiting = true)) ∧
    ((s.carrier c).align = .hunt → (s.carrier c).los = false → (s.carrier c).pos = none →
      (s.carrier c).held = [0x1E, 0xB4, 0x7C] → exec (.carrierByteReceived c 0x53 true) s =
        .next (s.putCarrier c { s.carrier c with align := .confirm, confirm := 0, miss := 0, pos := some 4, held := [],
                                                 quiet := 0 }))

/-- A received frame of an ALIGNED carrier: the miss count, the decoded code of each berth, the control-error count, and
the burst that each fed path receives in its input stage, behind what its stage still held (R27, R29, R30, R65). -/
def Obligations.CarrierFrameIsRead : Prop :=
  ∀ (s : State) (c : Nat) (f : RxFrame), c < 4 → (Instr.carrierFrameReceived c f).wf = true →
    s.TablesOk → (s.carrier c).align = .aligned → f.pattern = carrierPattern → ((s.feed c).flatMap (·.handles)).Nodup →
    ∃ u : State, exec (.carrierFrameReceived c f) s = .next u ∧
      (u.carrier c).align = .aligned ∧ (u.carrier c).miss = 0 ∧
      (u.carrier c).ctlErr = min 65535 ((s.carrier c).ctlErr + controlErrors f) ∧
      (∀ e ∈ f.berths, u.codeHeld c e.1 = some (decodeCopies e.2.copy1 e.2.copy2 e.2.copy3).1 ∧
        (u.carrier c).decoded.getLsbD e.1 = true) ∧
      (∀ b, (∀ e ∈ f.berths, e.1 ≠ b) → u.codeHeld c b = s.codeHeld c b) ∧
      (∀ e ∈ s.feed c, ∀ h ∈ e.handles, ∀ p g l, s.path h = some p → p.fil = some g → g.store.length ≤ capacity p.k →
        groupDelivery f e.first e.k = some l →
        ∃ q g', u.path h = some q ∧ q.fil = some g' ∧ g'.inStage = l ∧
          g'.store = (g.store ++ g.inStage).take (capacity p.k)) ∧
      (∀ h, (∀ e ∈ s.feed c, h ∉ e.handles) → u.path h = s.path h) ∧
      u.ftm = s.ftm ∧ u.clp = s.clp ∧ u.fil = s.fil ∧ u.cbl = s.cbl ∧ u.hwy = s.hwy ∧ u.cnd = s.cnd ∧
      u.pending = s.pending

/-- What a carrier builder puts in a group, a carrier receiver delivers: for each code that carries data, the delivered
bytes are the content's bytes, whatever group and label (R13, R29, R30). -/
def Obligations.GroupBytesAreDelivered : Prop :=
  ∀ (f : RxFrame) (first k : Nat) (code : Code) (label : Char7) (bytes : List Byte),
    0 < k → code ≠ .maintenance → code ≠ .idle → bytes.length = firstBytes code + 90 * (k - 1) →
    (∀ i, i < k → ∃ b, Sparse.find f.berths (first + i) = some b ∧
      [b.copy1, b.copy2, b.copy3, b.label] ++ b.payload =
        ((groupBytes k code label bytes).drop (95 * i)).take 95) →
    groupDelivery f first k = some bytes ∧
    ∃ b, Sparse.find f.berths first = some b ∧ berthCode b = code ∧ b.label = label.zeroExtend 8

/-- Two equal complete label cycles running confirm a label; a complete cycle that differs from the last leaves the
confirmed label and becomes the last (R32, R33). -/
def Obligations.EqualCyclesConfirmLabel : Prop :=
  ∀ (r : Capture) (l : List RxBerth), l.length = 8 → (∀ b ∈ l, berthCode b ≠ .idle) → r.cycle = none →
    (r.prev = none ∨ r.prev = some 15) →
    r.frames 0 l =
      { prev := some 7, cycle := none, last := some (l.map (fun b => b.label.truncate 7)),
        confirmed := if r.last = some (l.map (fun b => b.label.truncate 7)) then
          some (l.map (fun b => b.label.truncate 7)) else r.confirmed }

/-! ### The label scan -/

/-- LABEL SCAN: the ranges (INVALID), a carrier that is not ALIGNED (NOT_READY with counts of 0), and a scan that begins
(R160, R168; that an absent field reads as 0xFF in each byte is the model's reading: log 14). -/
def Obligations.LabelScanBegins : Prop :=
  ∀ (s : State) (p : ScanP) (sc : Scan), s.ready →
    sc = { par := p, next := some p.first, slots := List.replicate 32 none, decided := [], examined := 0, skipped := 0,
           unreadable := 0, last := none, stall := 0 } →
    (scanInRange p = false → exec (.labelScan p) s = .next (s.answer [1])) ∧
    (scanInRange p = true → (s.carrier p.carrier).align ≠ .aligned →
      exec (.labelScan p) s = .next (s.answer ([8] ++ List.replicate 13 0xFF ++ [0, 0, 0, 0, 0, 0]))) ∧
    (scanInRange p = true → (s.carrier p.carrier).align = .aligned →
      exec (.labelScan p) s = .next ((s.setCrx { s.crx with scan := some sc }).setCmd
        { s.cmd with phase := .execution, inProgress := none, staged := none, outFifo := [], waiting := false }))

/-- The sixteenth frame without a cycle start, and a byte taken in EXECUTION, end a scan: its result is staged with its
code and counts, result waiting becomes yes and the engine is IDLE (R163, R167, R168, R184). -/
def Obligations.ScanEndsWithResult : Prop :=
  ∀ (s : State) (sc : Scan), s.crx.scan = some sc →
    (16 ≤ sc.stall + 1 → exec .scanStall s = .next ((s.setCrx { s.crx with scan := none }).setCmd
      (s.cmd.stage (scanResult .notReady none sc.last sc.examined sc.skipped sc.unreadable) true))) ∧
    (s.cmd.phase = .execution → s.cmd.inFifo = [] → exec .scanAbort s = .next ((s.setCrx { s.crx with scan := none }).setCmd
      (s.cmd.stage (scanResult .aborted none sc.last sc.examined sc.skipped sc.unreadable) true)))

/-- The candidates of a scan (R161): the last one is the greatest group start of the sequence that does not exceed the end
berth, a multiple of k, and there are at most 432. The relation of a label to the pattern (R165): EQUAL when no position
is unequal, 0x7F in the pattern being equal to any character, else decided by the first unequal position. -/
def Obligations.ScanCandidatesAndRelation : Prop :=
  (∀ p : ScanP, scanInRange p = true →
    (∃ n, n < 432 ∧ lastCandidate p = p.first + n * (p.step * p.size)) ∧ lastCandidate p ≤ p.last ∧
    p.last < lastCandidate p + p.step * p.size ∧ lastCandidate p % p.size = 0 ∧ lastCandidate p + p.size ≤ 432 ∧
    (∀ g, p.first ≤ g → g ≤ p.last → (g - p.first) % (p.step * p.size) = 0 →
      (nextCandidate p g = none ↔ g = lastCandidate p))) ∧
  (∀ (p l : Label), p.length = l.length →
    (relation p l = .equal ↔ ∀ i, i < p.length → p.getD i 0 = 0x7F ∨ p.getD i 0 = l.getD i 0) ∧
    (∀ i, i < p.length → (∀ j, j < i → p.getD j 0 = 0x7F ∨ p.getD j 0 = l.getD j 0) → p.getD i 0 ≠ 0x7F →
      (l.getD i 0 < p.getD i 0 → relation p l = .less) ∧ (p.getD i 0 < l.getD i 0 → relation p l = .greater)) ∧
    (satisfies 0 (relation p l) = decide (relation p l = .equal)) ∧
    (satisfies 1 (relation p l) = decide (relation p l = .equal ∨ relation p l = .less)) ∧
    (satisfies 2 (relation p l) = decide (relation p l = .equal ∨ relation p l = .greater)))

/-! ### Fill control -/

/-- The bytes of a store: a read from the oldest end, an underflow, a write from the input stage, an overflow, and a fill
byte while the source is not delivering (R65 to R67, R69). Nothing else of the machine changes. -/
def Obligations.StoreBytesMove : Prop :=
  ∀ (s : State) (h : Nat) (p : PathRec) (f : Fil) (b : Byte) (r : List Byte),
    s.path h = some p → p.fil = some f →
    (f.store = b :: r → f.outStage.length < frameBytes p.k f.outDec → exec (.storeRead h) s =
      .next (s.setPath h { p with fil := some { f with store := r, outStage := f.outStage ++ [b] } })) ∧
    (f.store = [] → f.outStage.length < frameBytes p.k f.outDec → exec (.storeRead h) s =
      .next (s.setPath h { p with fil := some { f with outStage := f.outStage ++ [0x00], slipPending := true } })) ∧
    (f.inStage = b :: r → f.store.length < capacity p.k → exec (.inputStageWrite h) s =
      .next (s.setPath h { p with fil := some { f with store := f.store ++ [b], inStage := r } })) ∧
    (f.inStage = b :: r → ¬ f.store.length < capacity p.k → exec (.inputStageWrite h) s =
      .next (s.setPath h { p with fil := some { f with inStage := r, slipPending := true } })) ∧
    (s.notDelivering p = true → f.store.length < capacity p.k → exec (.fillWrite h) s =
      .next (s.setPath h { p with srcBadSeen := true,
                                  fil := some { f with defectSeen := true, store := f.store ++ [0xFF] } }))

/-- The end of an offset window: the offset is S * 10000 / (720 k) rounded to the nearest integer, halfway values away
from zero, and clamped to 32767 in size; an invalid window leaves it; both start a new valid window (R76). That the row acts alone
of its decision point, one decision short of 8000, is the model's choice (log 2). -/
def Obligations.WindowEndGivesOffset : Prop :=
  ∀ (s : State) (h : Nat) (p : PathRec) (f : Fil), s.path h = some p → p.fil = some f → 0 < p.k → 8000 ≤ f.wCount + 1 →
    (f.wValid = true → ∃ q : Int,
      2 * |f.wSum * 10000 - q * (720 * p.k)| ≤ 720 * p.k ∧
      (2 * |f.wSum * 10000 - q * (720 * p.k)| = 720 * p.k → |f.wSum * 10000| < |q * (720 * p.k)|) ∧
      exec (.windowEnd h) s = .next (s.setPath h { p with fil := some { f with
        offset := some (max (-32767) (min 32767 q)), clamped := decide (32767 < q ∨ q < -32767), lastInvalid := false,
        wSum := 0, wCount := 0, wValid := true } })) ∧
    (f.wValid = false → exec (.windowEnd h) s = .next (s.setPath h { p with fil := some { f with
        lastInvalid := true, wSum := 0, wCount := 0, wValid := true } }))

/-- An ordinary decision point (R71, R72, R75): the decision by the spacing counter and D, the new path frame, and the
window's account; the bytes read are handed on with their code, to the carry queue of a LOCAL path with a carrier sink or
to HWY for a live SOURCE path (R70, R86). The store, every other record and the other blocks are as they were. In the
frame of its ADD a path's decision point does nothing (R61). -/
def Obligations.OrdinaryDecisionPoint : Prop :=
  ∀ (s : State) (h : Nat) (p : PathRec) (f : Fil) (d : Dec) (sp : Nat),
    s.path h = some p → p.fil = some f → (p.begun = false → exec (.decisionPoint h) s = .next s) ∧ (
    p.begun = true → f.forced = none → f.slipPending = false → f.defectSeen = false →
    s.notDelivering p = false → f.outStage.length = frameBytes p.k f.outDec → f.wCount + 1 < 8000 →
    (p.role = .source ∨ (p.role = .loc ∧ ∃ c b, p.sink = some (.carrier c b))) →
    sp = min 255 (f.spacing + 1) →
    d = (if sp < s.fil.n then .normal
         else if (s.fil.h : Int) < (f.store.length : Int) - (centre p.k : Int) then .extra
         else if (f.store.length : Int) - (centre p.k : Int) < -(s.fil.h : Int) then .short else .normal) →
    ∃ (u : State) (q : PathRec), exec (.decisionPoint h) s = .next u ∧ u.path h = some q ∧
      q.fil = some { f with outStage := [], outDec := d, lastDec := d, lastForced := false,
                            spacing := (if d = .normal then sp else 0), wCount := f.wCount + 1,
                            wSum := f.wSum + (match d with | .extra => 1 | .short => -1 | .normal => 0) } ∧
      (p.role = .loc → q.carry = joinCarry p.carry { code := f.outDec.code, bytes := f.outStage } (s.debtorsOf h p)) ∧
      (p.role = .source → p.liveF = true → q.hw.content = some { code := f.outDec.code, bytes := f.outStage }) ∧
      q.state = p.state ∧ q.lastCompletion = p.lastCompletion ∧ sameOthers h s u ∧
      u.ftm = s.ftm ∧ u.clp = s.clp ∧ u.crx = s.crx ∧ u.fil = s.fil ∧ u.cbl = s.cbl ∧ u.cnd = s.cnd ∧ u.cmd = s.cmd ∧
      u.pending = s.pending)

/-- A slip is recovered at the next decision point: the store is at its centre, the slip is counted, the window is
invalid, a forced operation ends with its completion, and FILL_SLIP is handed to CND (R73 to R75, R82, R173). -/
def Obligations.SlipRecoveredAtDecisionPoint : Prop :=
  ∀ (s : State) (h : Nat) (p : PathRec) (f : Fil), s.path h = some p → p.fil = some f → p.begun = true →
    f.slipPending = true → f.outStage.length = frameBytes p.k f.outDec → f.wCount + 1 < 8000 → p.role = .source →
    ∃ u q g, exec (.decisionPoint h) s = .next u ∧ u.path h = some q ∧ q.fil = some g ∧
      g.store = f.store.drop (f.store.length - centre p.k) ++ List.replicate (centre p.k - f.store.length) 0x00 ∧
      g.store.length = centre p.k ∧ g.slips = min 65535 (f.slips + 1) ∧ g.slipPending = false ∧ g.wValid = false ∧
      g.outDec = .normal ∧ g.forced = none ∧ q.slipSeen = true ∧
      (∀ o, f.forced = some o → g.lastSteps = o.steps ∧
        q.lastCompletion = some (if o.nudge then .nudgeLimit else .recentreEnded .slip) ∧ u.listed h = true) ∧
      ((s.cnd.setting .fillSlip).type = .off → u.cnd = s.cnd) ∧
      ((s.cnd.setting .fillSlip).type ≠ .off → u.cnd = s.cnd.offer
        { kind := .fillSlip, obj := .path h, edge := .event, mfCount := s.ftm.mfCount, overflow := false, dropped := 0 })

/-- The steps of a RECENTRE and of a NUDGE at a decision point with no slip and no defect (R79, R81): by the spacing
counter, the occupancy and the steps taken, the decision is forced, or the operation goes on, or it ends with its
completion. -/
def Obligations.ForcedOperationSteps : Prop :=
  ∀ (c : FilConsts) (k : Nat) (f : Fil) (o : Forced) (sp : Nat) (D : Int), f.forced = some o → f.slipPending = false →
    f.defectSeen = false → sp = min 255 (f.spacing + 1) → D = (f.store.length : Int) - (centre k : Int) →
    (sp < c.i → (f.decide c k).fil.lastDec = .normal ∧ (f.decide c k).fil.forced = some o ∧ (f.decide c k).post = none) ∧
    (c.i ≤ sp → o.nudge = false →
      (-1 ≤ D ∧ D ≤ 1 → (f.decide c k).fil.forced = none ∧ (f.decide c k).post = some .recentred ∧
        (f.decide c k).fil.lastForced = false) ∧
      (2 ≤ D → o.steps < o.limit → (f.decide c k).fil.lastDec = .extra ∧ (f.decide c k).fil.lastForced = true ∧
        (f.decide c k).fil.forced = some { o with steps := o.steps + 1, dir := some .down } ∧
        (f.decide c k).post = none) ∧
      (D ≤ -2 → o.steps < o.limit → (f.decide c k).fil.lastDec = .short ∧ (f.decide c k).fil.lastForced = true ∧
        (f.decide c k).fil.forced = some { o with steps := o.steps + 1, dir := some .up } ∧
        (f.decide c k).post = none) ∧
      ((2 ≤ D ∨ D ≤ -2) → o.steps = o.limit → (f.decide c k).fil.forced = none ∧
        (f.decide c k).fil.lastSteps = o.steps ∧ (f.decide c k).post = some .recentreIncomplete)) ∧
    (c.i ≤ sp → o.nudge = true → o.dir = some .down →
      (f.store.length < 9 → (f.decide c k).fil.forced = none ∧ (f.decide c k).post = some .nudgeLimit) ∧
      (9 ≤ f.store.length → (f.decide c k).fil.lastDec = .extra ∧ (f.decide c k).fil.lastForced = true ∧
        (o.steps + 1 < o.limit → (f.decide c k).post = none ∧
          (f.decide c k).fil.forced = some { o with steps := o.steps + 1 }) ∧
        (o.steps + 1 = o.limit → (f.decide c k).fil.forced = none ∧ (f.decide c k).post = some .nudged ∧
          (f.decide c k).fil.lastSteps = o.steps + 1))) ∧
    (c.i ≤ sp → o.nudge = true → o.dir = some .up →
      (capacity k - 8 < f.store.length + 1 → (f.decide c k).fil.forced = none ∧
        (f.decide c k).post = some .nudgeLimit) ∧
      (f.store.length + 1 ≤ capacity k - 8 → (f.decide c k).fil.lastDec = .short ∧
        (f.decide c k).fil.lastForced = true))

/-! ### Carrier builders -/

/-- GROUP_START by the table of R85: a berth with no owner carries IDLE; a PRIMARY or BRIDGE group takes its entry and
carries its bytes when the path is live, not squelched and owed data, and MAINTENANCE otherwise; a RETIRING group carries
MAINTENANCE and takes nothing. The overhead of every outgoing carrier is that of R12. -/
def Obligations.GroupStartFillsGroup : Prop :=
  ∀ (s : State) (c b : Nat), c < 4 → b < 432 →
    s.carrierOverhead c = [0x1E, 0xB4, 0x7C, 0x53, BitVec.ofNat 8 s.ftm.frame, BitVec.ofNat 8 c, 0x00, 0x00] ∧
    (s.groupAt c b = none → exec (.groupStart c b) s = .next (s.setGroupOut c b (List.replicate 95 0x00))) ∧
    (∀ g h p, s.groupAt c b = some g → g.first = b → g.handle = some h → s.path h = some p →
      (g.role = .retiring → exec (.groupStart c b) s =
        .next (s.setGroupOut c b (groupBytes g.k .maintenance g.label []))) ∧
      (g.role ≠ .retiring → ∀ o rest, takeCarry (.group c b) p.carry = (o, rest) →
        (∀ x, g.live = true → p.sq.on = false → o = some x → x.code ≠ .maintenance → x.code ≠ .idle →
          exec (.groupStart c b) s = .next ((s.setPath h { p with carry := rest }).setGroupOut c b
            (groupBytes g.k x.code g.label x.bytes))) ∧
        (g.live = false ∨ p.sq.on = true ∨ o = none ∨ (∃ x, o = some x ∧ (x.code = .maintenance ∨ x.code = .idle)) →
          exec (.groupStart c b) s = .next ((s.setPath h { p with carry := rest }).setGroupOut c b
            (groupBytes g.k .maintenance g.label [])))))

/-- The carry queue (R86, R87): a content joins behind the others with its debtors, the oldest of two leaving first; a
place takes the oldest entry of which it is a debtor, stops being its debtor, and an entry with no debtor leaves. -/
def Obligations.CarryQueueKeepsOrder : Prop :=
  (∀ (q : List CarryEntry) (x : Content) (ds : List Debtor), ds ≠ [] →
    (q.length < 2 → joinCarry q x ds = q ++ [{ content := x, debtors := ds }]) ∧
    (∀ a b, q = [a, b] → joinCarry q x ds = [b, { content := x, debtors := ds }])) ∧
  (∀ (q : List CarryEntry) (x : Content), joinCarry q x [] = q) ∧
  (∀ (d : Debtor) (q : List CarryEntry), (∀ e ∈ q, d ∉ e.debtors) → takeCarry d q = (none, q)) ∧
  (∀ (d : Debtor) (q r : List CarryEntry) (e : CarryEntry), (∀ x ∈ q, d ∉ x.debtors) → d ∈ e.debtors →
    (e.debtors.filter (fun x => !(x == d)) = [] → takeCarry d (q ++ e :: r) = (some e.content, q ++ r)) ∧
    (e.debtors.filter (fun x => !(x == d)) ≠ [] → takeCarry d (q ++ e :: r) =
      (some e.content, q ++ { e with debtors := e.debtors.filter (fun x => !(x == d)) } :: r)))

/-- Squelch: the command sets the flag and turns squelch on, or clears the flag alone (R94); a frame with a selected
source turns it on (R93); a boundary updates the quiet count and lifts it when it is on, the flag is clear and the count
is Q or more (R95). SQUELCH_LIFT, the row that names this end alone, is the model's choice (log 2). -/
def Obligations.SquelchOnsetAndLift : Prop :=
  ∀ (s : State) (h : Nat) (p : PathRec), s.path h = some p → p.hasSink = true →
    (s.ready → h ≤ 1023 →
      exec (.squelch h 1) s = .next ((s.setPath h { p with sq :=
        { p.sq with forced := true, on := true, onSeen := true } }).answer [0]) ∧
      exec (.squelch h 0) s = .next ((s.setPath h { p with sq := { p.sq with forced := false } }).answer [0])) ∧
    (p.selectedPresent = true → p.squelchOnset.sq.on = true) ∧
    (p.selectedPresent = false → p.squelchOnset = p) ∧
    (∀ q : Nat, 0 < q → (p.squelchBoundary q).sq.quiet = (if p.sq.srcSeenMf then 0 else min 15 (p.sq.quiet + 1)) ∧
      ((p.squelchBoundary q).sq.on = true ↔ p.sq.on = true ∧
        ¬ (p.sq.forced = false ∧ q ≤ (if p.sq.srcSeenMf then 0 else min 15 (p.sq.quiet + 1))))) ∧
    (p.sq.on = true → p.sq.forced = false → s.cbl.holdoff ≤ p.sq.quiet →
      exec (.squelchLift h) s = .next (s.setPath h { p with sq := { p.sq with on := false } }))

/-! ### The highway -/

/-- A heard message between other stations changes the entries of its run by the tables of R115 to R117, and every other
entry, every record and every other block is as it was; a message that fails R110 is counted and changes no entry. That
a received message is a command of its own, outside a burst, is the model's choice (log 2). -/
def Obligations.HeardMessageChangesRun : Prop :=
  ∀ (s : State) (b : MsgBody) (i : Instr) (m : Msg), s.TablesOk → s.isOwn b.sender = false → s.isOwn b.addressee = false →
    (∀ x ∈ s.hwy.mons, x = .idle) →
    ((i = .claim b ∧ m = .claim b) ∨ (i = .accept b ∧ m = .accept b) ∨ (∃ r, i = .refuse b r ∧ m = .refuse b r) ∨
      (∃ r, i = .release b r ∧ m = .release b r)) →
    (m.passes = false → ∃ u : State, exec i s = .next u ∧ u.hwy.msgCheck = min 65535 (s.hwy.msgCheck + 1) ∧
      u.hwy.msgRaised = true ∧ u.hwy.cells = s.hwy.cells ∧ u.ptb = s.ptb ∧ u.ftm = s.ftm ∧ u.clp = s.clp ∧
      u.crx = s.crx ∧ u.fil = s.fil ∧ u.cbl = s.cbl ∧ u.cmd = s.cmd ∧ u.pending = s.pending ∧
      (s.hwy.msgRaised = true → u.cnd = s.cnd)) ∧
    (m.passes = true → ∃ u : State, exec i s = .next u ∧ sameButPaths s u ∧ u.ptb = s.ptb ∧
      u.hwy = { s.hwy with cells := u.hwy.cells } ∧ sameOutside b.first b.size s u ∧
      ∀ x, b.first ≤ x → x < b.first + b.size →
        ((s.entry x).isOwn = true → u.entry x = s.entry x) ∧
        (m = .claim b →
          (∀ h t n rel, s.entry x = .held h t n rel → u.entry x = .held h t n rel) ∧
          (s.entry x = .free → u.entry x = .reserved b.sender b.tag 0 false false) ∧
          (∀ h t a acc rel, s.entry x = .reserved h t a acc rel →
            u.entry x = .reserved b.sender b.tag 0 false false)) ∧
        (m = .accept b →
          (∀ h t n rel, s.entry x = .held h t n rel → u.entry x = .held h t n rel) ∧
          (s.entry x = .free → u.entry x = .reserved b.addressee b.tag 0 true false) ∧
          (∀ h t a acc rel, s.entry x = .reserved h t a acc rel → u.entry x =
            .reserved b.addressee b.tag 0 true (rel && decide (h = b.addressee ∧ t = b.tag)))) ∧
        (∀ r, m = .refuse b r → u.entry x =
          (match s.entry x with
           | .reserved h t _ _ _ => if h = b.addressee ∧ t = b.tag then .free else s.entry x
           | e => e)) ∧
        (∀ r w, m = .release b r → w = (if r = .sinkGone then b.addressee else b.sender) → u.entry x =
          (match s.entry x with
           | .reserved h t a acc rel => .reserved h t a acc (rel || decide (h = w ∧ t = b.tag))
           | .held h t n rel => .held h t n (rel || decide (h = w ∧ t = b.tag))
           | e => e)))

/-- The entries of the cell map. At a boundary each ages by the table of R118; the second boundary of a reservation with no
answer frees it, and so does the 32nd silent frame of a held entry. A cell that this station does not drive holds its
entry for the station and tag of a valid header, keeping release pending only for the same holder and tag, and a silent
cell counts towards 32; every other entry is as it was (R113, R118, R119; the rows that name an entry's end act as log 2 says).
A record changes only where it is a SINK record that copies the cell, whose counts follow R138, or one in LISTENING that
watches for it (R142). -/
def Obligations.CellMapFollowsCells : Prop :=
  (∀ h t a acc n, (CellEntry.reserved h t a acc true).boundary = .free ∧ (CellEntry.held h t n true).boundary = .free ∧
    (CellEntry.reserved h t a true false).boundary = .held h t 0 false ∧
    (CellEntry.held h t n false).boundary = .held h t n false ∧
    (a + 1 < 2 → (CellEntry.reserved h t a false false).boundary = .reserved h t (a + 1) false false) ∧
    (2 ≤ a + 1 → (CellEntry.reserved h t a false false).boundary = .free)) ∧
  (∀ (s : State) (x h t : Nat), s.TablesOk → x < 1024 → s.entry x = .reserved h t 1 false false →
    ∃ u : State, exec (.reservationAgeExpiry x) s = .next u ∧ u.entry x = .free ∧ sameOutside x 1 s u ∧ sameButPaths s u ∧
      u.ptb = s.ptb ∧ u.hwy = { s.hwy with cells := u.hwy.cells }) ∧
  (∀ (s : State) (x h t : Nat) (rel : Bool), s.TablesOk → x < 1024 → s.entry x = .held h t 31 rel →
    ∃ u : State, exec (.silentCellExpiry x) s = .next u ∧ u.entry x = .free ∧ sameOutside x 1 s u ∧ sameButPaths s u ∧
      u.ptb = s.ptb ∧ u.hwy = { s.hwy with cells := u.hwy.cells }) ∧
  (∀ (s : State) (x : Nat) (line : BitVec 42) (payload : List Byte), s.TablesOk → x < 1024 → s.hwy.drives = [] →
    (∀ m ∈ s.hwy.mons, m = .idle) → (s.entry x).isOwn = false →
    ∃ u : State, exec (.highwayCell x line 0 payload) s = .next u ∧ sameButPaths s u ∧ sameOutside x 1 s u ∧
      u.hwy.passed.getLsbD x = true ∧
      (∀ hd, decodeHeader line = some hd →
        (∀ n rel, s.entry x = .held hd.station hd.tag n rel → u.entry x = .held hd.station hd.tag 0 rel) ∧
        (∀ a acc rel, s.entry x = .reserved hd.station hd.tag a acc rel → u.entry x = .held hd.station hd.tag 0 rel) ∧
        ((∀ n rel, s.entry x ≠ .held hd.station hd.tag n rel) →
          (∀ a acc rel, s.entry x ≠ .reserved hd.station hd.tag a acc rel) →
          u.entry x = .held hd.station hd.tag 0 false)) ∧
      (decodeHeader line = none →
        (∀ h t n rel, s.entry x = .held h t n rel →
          u.entry x = (if 32 ≤ n + 1 then .free else .held h t (n + 1) rel)) ∧
        ((∀ h t n rel, s.entry x ≠ .held h t n rel) → u.entry x = s.entry x)) ∧
      u.ptb.completions = s.ptb.completions ∧ u.ptb.feeds = s.ptb.feeds ∧ u.handles = s.handles ∧
      (∀ h p, s.path h = some p → inRun x p.k p.sk.copy = false →
        (∀ hd, decodeHeader line = some hd → ¬ (p.role = .sink ∧ p.state = .listening ∧ some hd.station = p.remote ∧
          hd.tag = p.tag ∧ hd.index = x % p.k)) → u.path h = some p) ∧
      (∀ h p r, s.path h = some p → p.sk.copy = some r → r ≤ x → x < r + p.k → p.receives = true →
        p.sk.cells = some r → Sparse.rising p.sk.missing = true →
        ∃ q, u.path h = some q ∧ q = { p with sk := q.sk } ∧
          (∀ hd, decodeHeader line = some hd → some hd.station = p.remote ∧ hd.tag = p.tag →
            (hd.index = x - r → Sparse.get 0 q.sk.missing (x - r) = 0 ∧ q.sk.check = p.sk.check) ∧
            (hd.index ≠ x - r → q.sk.missing = p.sk.missing ∧ q.sk.check = min 255 (p.sk.check + 1))) ∧
          (∀ hd, decodeHeader line = some hd → ¬ (some hd.station = p.remote ∧ hd.tag = p.tag) →
            Sparse.get 0 q.sk.missing (x - r) = min 4 (Sparse.get 0 p.sk.missing (x - r) + 1) ∧
            q.sk.check = p.sk.check) ∧
          (line = BitVec.allOnes 42 →
            Sparse.get 0 q.sk.missing (x - r) = min 4 (Sparse.get 0 p.sk.missing (x - r) + 1) ∧
            q.sk.check = p.sk.check) ∧
          (decodeHeader line = none → line ≠ BitVec.allOnes 42 →
            q.sk.missing = p.sk.missing ∧ q.sk.check = min 255 (p.sk.check + 1))))

/-- A driven cell (R111, R112, R135): with no other driver and no noise the station's own header is on the line and
nothing else changes; a header that reads back differently is a collision, which releases the run of a CARRYING record
and takes it to COLLIDED with its backoff, or at the fourth attempt to STRANDED with its completion. -/
def Obligations.DrivenCellAndCollision : Prop :=
  ∀ (s : State) (x : Nat) (d : Drive) (own others noise : BitVec 42) (payload : List Byte), s.TablesOk →
    x < 1024 →
    s.hwy.drives.find? (fun e => decide (e.first ≤ x) && decide (x < e.first + e.k)) = some d →
    own = encodeHeader (d.header s.self (x - d.first)) →
    (driveLine own (BitVec.allOnes 42) 0 = own) ∧
    (∀ o : BitVec 42, driveLine own o 0 = own ↔ own &&& o = own) ∧
    (driveLine own others noise = own → exec (.highwayCell x others noise payload) s = .next (s.setHwy { s.hwy with
      passed := s.hwy.passed ||| BitVec.twoPow 1024 x,
      cellOut := some { cell := x, header := own,
                        payload := positions d.carried.code d.carried.bytes (x - d.first) } })) ∧
    (∀ p r, driveLine own others noise ≠ own → s.path d.handle = some p → p.tag = d.tag → p.state = .carrying →
      p.hw.cells = some r → r ≤ x → x < r + p.k → s.listed d.handle = false →
      ∃ (u : State) (q : PathRec), exec (.highwayCell x others noise payload) s = .next u ∧ u.path d.handle = some q ∧
        q.hw.attempt = min 4 (p.hw.attempt + 1) ∧ q.hw.clean = 0 ∧ q.hw.cells = none ∧
        (∀ y, r ≤ y → y < r + p.k → (s.entry y).isOwn = true → u.entry y = .free) ∧ sameOutside r p.k s u ∧
        (∀ e ∈ u.hwy.drives, e.handle ≠ d.handle) ∧
        (s.hasRoom = true → u.hwy.sendQ = s.hwy.sendQ ++ [freshMsg (releaseOf s p r .collision)]) ∧
        (s.hasRoom = false → u.hwy.sendQ = s.hwy.sendQ) ∧
        (p.hw.attempt < 3 → q.state = .collided ∧ q.hw.backoff = some ((s.self + 1) * 2 ^ p.hw.attempt) ∧
          u.ptb.completions = s.ptb.completions) ∧
        (3 ≤ p.hw.attempt → q.state = .stranded ∧ u.ptb.completions = s.ptb.completions ++ [(d.handle, .stranded)]) ∧
        sameOthers d.handle s u ∧ sameButPaths s u)

/-- A control burst (R104, R105, R110): a station that does not contend passes a burst with yield no, and hears nothing in
an empty one; a message alone on the line wins, leaves the queue and sets yield; a message that the others carry is
heard. -/
def Obligations.ControlBurstOutcomes : Prop :=
  ∀ s : State,
    (s.contender = none → exec (.controlBurst (BitVec.allOnes 51) 0) s =
      .next (s.setHwy { s.hwy with yielding := false, burstLine := BitVec.allOnes 51 })) ∧
    (∀ m, m.passes = true → s.contender = none → exec (.controlBurst (encodeMsg m) 0) s =
      .next ((s.setHwy { s.hwy with yielding := false, burstLine := encodeMsg m }).hear m)) ∧
    (∀ q rest, s.hwy.sendQ = q :: rest → s.hwy.yielding = false → s.maySend q.msg = true →
      ∃ u : State, exec (.controlBurst (BitVec.allOnes 51) 0) s = .next u ∧ u.hwy.sendQ = rest ∧ u.hwy.yielding = true ∧
        u.hwy.burstLine = encodeMsg q.msg ∧ sameOutside q.msg.body.first q.msg.body.size s u ∧ sameButPaths s u ∧
        (∀ b, q.msg = .claim b → u.ptb = s.ptb ∧
          ∀ c, Monitor.bound c ∈ s.hwy.mons → c.tag = b.tag → c.first = b.first → Monitor.running c s.hwy.timeout ∈ u.hwy.mons) ∧
        (∀ b h p, q.msg = .accept b → b.move = false → s.path h = some p → p.role = .sink → p.tag = b.tag →
          p.sk.status = some .queued →
          u.path h = some { p with sk := { p.sk with status := some .sent } }) ∧
        (∀ b r, q.msg = .refuse b r → u.ptb = s.ptb) ∧ (∀ b r, q.msg = .release b r → u.ptb = s.ptb))

/-- The sink's answer to a CLAIM for it (R130, R131): the first row that applies, queued behind the other messages; a
REFUSE changes no record, and an ACCEPT without the move flag takes a LISTENING record to ACCEPTED with the claimed run. -/
def Obligations.SinkAnswersClaim : Prop :=
  ∀ (s : State) (b : MsgBody) (c : MsgBody), (Msg.claim b).passes = true → s.isOwn b.addressee = true →
    (∀ x ∈ s.hwy.mons, x = .idle) → c = { b with sender := b.addressee, addressee := b.sender } → s.hasRoom = true →
    ∃ u : State, exec (.claim b) s = .next u ∧ sameButPaths s u ∧ sameOutside b.first b.size s u ∧
      (s.findTag .sink b.tag = none → u.ptb = s.ptb ∧
        u.hwy.sendQ = s.hwy.sendQ ++ [freshMsg (.refuse c .noPath)]) ∧
      (∀ h p, s.findTag .sink b.tag = some (h, p) → s.path h = some p → sameOthers h s u ∧
        (p.remote ≠ some b.sender →
          u.ptb = s.ptb ∧ u.hwy.sendQ = s.hwy.sendQ ++ [freshMsg (.refuse c .noPath)]) ∧
        (p.remote = some b.sender →
          (p.k ≠ b.size →
            u.ptb = s.ptb ∧ u.hwy.sendQ = s.hwy.sendQ ++ [freshMsg (.refuse c .sizeMismatch)]) ∧
          (p.k = b.size → p.state = .defined →
            u.ptb = s.ptb ∧ u.hwy.sendQ = s.hwy.sendQ ++ [freshMsg (.refuse c .notReady)]) ∧
          (p.k = b.size → b.move = false → (p.state = .accepted ∨ (p.receives = true ∧ p.sk.rawLoss = false)) →
            u.ptb = s.ptb ∧ u.hwy.sendQ = s.hwy.sendQ ++ [freshMsg (.refuse c .sinkBusy)]) ∧
          (p.k = b.size → b.move = false → p.state = .listening → s.conflict b = true →
            u.ptb = s.ptb ∧ u.hwy.sendQ = s.hwy.sendQ ++ [freshMsg (.refuse c .cellConflict)]) ∧
          (p.k = b.size → b.move = false → p.state = .listening → p.bmove = none → p.sk.move = none →
            s.conflict b = false →
            u.hwy.sendQ = s.hwy.sendQ ++ [freshMsg (.accept c)] ∧
            u.path h = some { p with state := .accepted, sk := { p.sk with
              cells := some b.first, status := some .queued, missing := [], check := 0, loss := 0, watch := none } }) ∧
          (p.k = b.size → b.move = true → p.receives = true → p.sk.move = none → s.conflict b = false →
            u.hwy.sendQ = s.hwy.sendQ ++ [freshMsg (.accept c)] ∧
            u.path h = some { p with sk := { p.sk with
              move := some { new := b.first, status := .queued, guard := 0 } } })))

/-- The claimant's matched answer (R128, R133, R134): an ACCEPT makes accept heard yes and leaves the record CLAIMING; a
REFUSE frees the run, posts CLAIM_REFUSED with the reason, and takes the record to BLOCKED or to WAITING with a
backoff. -/
def Obligations.ClaimantTakesAnswer : Prop :=
  ∀ (s : State) (b : MsgBody) (h n : Nat) (p : PathRec) (c : Bound) (o : Monitor), s.TablesOk →
    s.isOwn b.addressee = true → s.isOwn b.sender = false → s.hwy.mons = [.running c n, o] → (o = .idle) → c.handle = h → c.tag = b.tag →
    c.first = b.first → c.k = b.size → c.addressee = b.sender → s.path h = some p → p.role = .source →
    p.state = .claiming → p.k = b.size → p.hw.cells = some b.first → b.move = false →
    (∀ x, b.first ≤ x → x < b.first + b.size → (s.entry x).isOwn = true) →
    ((Msg.accept b).passes = true → ∃ u : State, exec (.accept b) s = .next u ∧ u.hwy.mons = [.idle, .idle] ∧
      u.hwy.sendQ = s.hwy.sendQ ∧ (∀ x, u.entry x = s.entry x) ∧
      u.path h = some { p with hw := { p.hw with acceptHeard := true } } ∧ sameOthers h s u ∧ sameButPaths s u ∧
      u.ptb.completions = s.ptb.completions) ∧
    (∀ r, (Msg.refuse b r).passes = true → s.listed h = false → ∃ (u : State) (q : PathRec), exec (.refuse b r) s = .next u ∧
      u.path h = some q ∧ u.hwy.mons = [.idle, .idle] ∧ u.hwy.sendQ = s.hwy.sendQ ∧
      (∀ x, b.first ≤ x → x < b.first + b.size → u.entry x = .free) ∧ sameOutside b.first b.size s u ∧
      q.state = (if r = .noPath ∨ r = .sizeMismatch then .blocked else .waiting) ∧ q.hw.cells = none ∧
      q.hw.refusal = some (.reason r) ∧ q.hw.attempt = p.hw.attempt ∧
      q.hw.backoff = (if r = .noPath ∨ r = .sizeMismatch then p.hw.backoff else some ((s.self + 1) * 2)) ∧
      u.ptb.completions = s.ptb.completions ++ [(h, .claimRefused r)] ∧ sameOthers h s u ∧ sameButPaths s u)

/-- A RELEASE from the remote station takes a SINK record that has its run to LISTENING, with SINK_LOST where it was
receiving (R132), and a RELEASE SINK_GONE takes a CARRYING source to WAITING with a backoff (R143). ANSWER_DROP removes
an ACCEPT that is too old and takes its record back to LISTENING (R108, R131). -/
def Obligations.SinksAndSourcesAreReleased : Prop :=
  (∀ (s : State) (b : MsgBody) (r : ReleaseReason) (h : Nat) (p : PathRec), (Msg.release b r).passes = true →
    r ≠ .sinkGone → s.isOwn b.addressee = true → s.findTag .sink b.tag = some (h, p) → s.path h = some p →
    p.role = .sink → p.remote = some b.sender → p.sk.cells = some b.first → p.k = b.size → p.bmove = none →
    p.sk.move = none → s.listed h = false →
    (p.state = .receiving ∨ p.state = .accepted ∨ p.state = .moving) →
    ∃ (u : State) (q : PathRec), exec (.release b r) s = .next u ∧ u.path h = some q ∧ q.state = .listening ∧ q.sk = p.sk.listening ∧
      (p.state = .accepted → u.ptb.completions = s.ptb.completions) ∧
      (p.state ≠ .accepted → u.ptb.completions = s.ptb.completions ++ [(h, .sinkLost)]) ∧
      (p.sk.status ≠ some .queued → u.hwy.sendQ = s.hwy.sendQ) ∧
      (p.sk.status = some .queued → u.hwy.sendQ = s.hwy.sendQ.filter (fun q => match q.msg with
        | .accept a => !(a.tag == p.tag && !a.move) | _ => true)) ∧
      sameOthers h s u ∧ sameButPaths s u) ∧
  (∀ (s : State) (b : MsgBody) (h : Nat) (p : PathRec), s.TablesOk → (Msg.release b .sinkGone).passes = true →
    s.isOwn b.addressee = true → s.findTag .source b.tag = some (h, p) → s.path h = some p →
    p.remote = some b.sender → p.hw.cells = some b.first → p.k = b.size → p.state = .carrying →
    ∃ u : State, exec (.release b .sinkGone) s = .next u ∧
      u.path h = some { p with state := .waiting, hw := { p.hw with
        cells := none, acceptHeard := false, clean := 0, cleanRun := false, backoff := some ((s.self + 1) * 2) } } ∧
      (∀ x, b.first ≤ x → x < b.first + b.size → (s.entry x).isOwn = true → u.entry x = .free) ∧
      u.ptb.completions = s.ptb.completions ∧ sameOthers h s u ∧ sameButPaths s u) ∧
  (∀ (s : State) (b : MsgBody) (h : Nat) (p : PathRec) (rest : List QueuedMsg), b.move = false →
    s.hwy.sendQ = { msg := .accept b, age := 15 } :: rest → (∀ q ∈ rest, q.age < 15) →
    s.findTag .sink b.tag = some (h, p) → s.path h = some p → p.state = .accepted →
    ∃ u : State, exec .answerDrop s = .next u ∧ u.hwy = { s.hwy with sendQ := rest } ∧
      u.path h = some { p with state := .listening, sk := { p.sk with status := none, cells := none } } ∧
      u.ptb.completions = s.ptb.completions ∧ sameOthers h s u ∧ sameButPaths s u)

/-- The counts of a highway record that end at a boundary: a backoff (R123), a claim's monitor (R129), the clean count
(R137), the loss count (R141), and the warm count of the station (R101). A row that names such an end acts as log 2 says.
At a boundary's FRAME_START: the effective boundary of a sink whose ACCEPT was sent (R131) and of a claimant that has
heard its ACCEPT (R133), and the observed adoption of a run that was complete throughout (R142). -/
def Obligations.HighwayCountsExpire : Prop :=
  (∀ (s : State) (h : Nat) (p : PathRec), s.path h = some p → p.hw.backoff = some 1 →
    exec (.backoffEnd h) s = .next (s.setPath h { p with
      state := (if p.state = .collided then .waiting else p.state), hw := { p.hw with backoff := none } })) ∧
  (∀ (s : State) (h : Nat) (p : PathRec) (c : Bound) (o : Monitor), s.TablesOk → s.hwy.mons = [.running c 1, o] → o.isFor h = false →
    c.handle = h → c.move = false → s.path h = some p → p.state = .claiming → p.hw.cells = some c.first → c.k = p.k →
    s.listed h = false →
    ∃ (u : State) (q : PathRec), exec (.claimExpiry h) s = .next u ∧ u.path h = some q ∧ u.hwy.mons = [.idle, o] ∧ q.hw.cells = none ∧
      q.hw.attempt = p.hw.attempt ∧ q.hw.refusal = p.hw.refusal ∧
      (s.hwy.block = true → q.state = .blocked ∧ q.hw.backoff = p.hw.backoff) ∧
      (s.hwy.block = false → q.state = .waiting ∧ q.hw.backoff = some (s.self + 1)) ∧
      (∀ x, c.first ≤ x → x < c.first + c.k → (s.entry x).isOwn = true → u.entry x = .free) ∧
      sameOutside c.first c.k s u ∧ (s.hasRoom = true → u.hwy.sendQ = s.hwy.sendQ ++ [freshMsg (releaseOf s p c.first .withdrawn)]) ∧
      u.ptb.completions = s.ptb.completions ++ [(h, .claimExpired)] ∧ sameOthers h s u ∧ sameButPaths s u) ∧
  (∀ (s : State) (h : Nat) (p : PathRec), s.path h = some p → p.hw.clean = 63 → p.role = .source → p.live = true →
    p.hw.cleanRun = true →
    exec (.cleanCountExpiry h) s = .next (s.setPath h { p with hw := { p.hw with clean := 64, attempt := 0 } })) ∧
  (∀ (s : State) (h : Nat) (p : PathRec), s.path h = some p → p.receives = true → p.sk.rawLoss = true → p.sk.loss = 1 →
    p.bmove = none → p.sk.move = none → p.sk.status = none → s.listed h = false →
    ∃ (u : State) (q : PathRec), exec (.cellLossFallback h) s = .next u ∧ u.path h = some q ∧ q.state = .listening ∧ q.sk = p.sk.listening ∧
      u.ptb.completions = s.ptb.completions ++ [(h, .sinkLost)] ∧ u.hwy = s.hwy ∧ sameOthers h s u ∧ sameButPaths s u) ∧
  (∀ s : State, s.hwy.station = .warming → s.hwy.warm = 1 →
    exec .warmingEnd s = .next (s.setHwy { s.hwy with warm := 2, station := .joined })) ∧
  (∀ (s : State) (h : Nat) (p : PathRec), s.TablesOk → s.settled h p → (s.ftm.frame + 1) % 16 = 0 → p.bmove = none →
    p.hw.move = none → p.sk.move = none →
    (p.role = .sink → p.state = .accepted → p.sk.status = some .sent →
      ∃ (u : State) (q : PathRec), exec .frameStart s = .next u ∧ u.path h = some q ∧ q.state = .receiving ∧
        q.sk.cells = p.sk.cells ∧ q.sk.copy = p.sk.cells ∧ q.sk.status = none ∧ q.sk.missing = [] ∧ q.sk.loss = 0 ∧
        q.sk.check = 0 ∧ q.lastCompletion = some .sinkStarted ∧ u.listed h = true) ∧
    (p.role = .source → p.state = .claiming → p.hw.acceptHeard = true →
      ∃ (u : State) (q : PathRec), exec .frameStart s = .next u ∧ u.path h = some q ∧ q.state = .carrying ∧
        q.hw.cells = p.hw.cells ∧ q.hw.acceptHeard = false ∧ q.hw.clean = 0 ∧ q.hw.attempt = p.hw.attempt ∧
        q.hw.refusal = p.hw.refusal ∧ q.lastCompletion = some .claimAccepted ∧ u.listed h = true) ∧
    (∀ x, p.role = .sink → p.state = .listening → p.sk.watch = some x → completeRun p.sk.watchSeen p.k x = true →
      s.mayCreate = true →
      ∃ (u : State) (q : PathRec), exec .frameStart s = .next u ∧ u.path h = some q ∧ q.state = .receiving ∧
        q.sk.cells = some x ∧ q.sk.copy = some x ∧ q.sk.watch = none ∧ q.sk.missing = [] ∧ q.sk.loss = 0 ∧
        q.sk.check = 0 ∧ q.lastCompletion = some .sinkStarted ∧ u.listed h = true)) ∧
  (∀ (s : State) (h : Nat) (p : PathRec) (x : Nat), s.path h = some p → p.state = .claiming → p.hw.acceptHeard = true →
    p.hw.cells = some x → sameOutside x p.k s (s.claimEffective h) ∧
    ∀ y t a, x ≤ y → y < x + p.k → s.entry y = .ownReserved a t → (s.claimEffective h).entry y = .ownHeld a t)

/-- The cell choice looks at aligned runs in rising order: the run it finds is a multiple of k, all its entries are FREE,
and no lower aligned run is FREE; it finds none only where no aligned run is FREE (R125). -/
def Obligations.CellChoiceTakesLowestFreeRun : Prop :=
  ∀ (s : State) (k : Nat), k = 1 ∨ k = 4 ∨ k = 16 →
    (∀ x, s.findRun k = some x → x % k = 0 ∧ x + k ≤ 1024 ∧ (∀ i, i < k → s.entry (x + i) = .free) ∧
      ∀ y, y < x → y % k = 0 → ∃ i, i < k ∧ s.entry (y + i) ≠ .free) ∧
    (s.findRun k = none → ∀ y, y % k = 0 → y + k ≤ 1024 → ∃ i, i < k ∧ s.entry (y + i) ≠ .free)

/-! ### Moves -/

/-- The three switches of a move, at the boundary at which the guard count reaches G: outgoing berths (R149), cells at
the source (R153), and cells at the sink (R154). A row that names a switch acts as log 2 says.
The other phases, at a boundary's FRAME_START: a pending move of berths begins or fails, a guard count rises, the switches
are made, and a move is done (R148, R149, R152 to R154). -/
def Obligations.MoveSwitches : Prop :=
  (∀ (s : State) (h : Nat) (p : PathRec) (m : BerthMove), s.path h = some p → p.bmove = some m → m.phase = .bridge →
    m.guard + 1 = s.cbl.guard → 0 < p.k → (m.oldC, m.oldB) ≠ (m.newC, m.newB) →
    m.oldB % p.k = 0 → m.newB % p.k = 0 → m.oldB + p.k ≤ 432 → m.newB + p.k ≤ 432 →
    ∃ u : State, exec (.berthMoveSwitch h) s = .next u ∧
      u.path h = some { p with sink := some (.carrier m.newC m.newB),
                               bmove := some { m with phase := .retiring, guard := m.guard + 1 } } ∧
      (∀ i, i < p.k → u.owner m.newC (m.newB + i) = some { handle := h, role := .primary } ∧
        u.owner m.oldC (m.oldB + i) = some { handle := h, role := .retiring }) ∧
      (∀ c b, b < 432 → ¬ (c = m.newC ∧ m.newB ≤ b ∧ b < m.newB + p.k) →
        ¬ (c = m.oldC ∧ m.oldB ≤ b ∧ b < m.oldB + p.k) → u.owner c b = s.owner c b) ∧
      sameOthers h s u ∧ u.hwy = s.hwy ∧ u.ftm = s.ftm ∧ u.clp = s.clp ∧ u.crx = s.crx ∧ u.fil = s.fil ∧
      u.cnd = s.cnd ∧ u.cmd = s.cmd ∧ u.pending = s.pending) ∧
  (∀ (s : State) (h : Nat) (p : PathRec) (m : CellMove), s.path h = some p → p.hw.move = some m → m.phase = .bridge →
    m.guard + 1 = s.cbl.guard → exec (.cellMoveSwitch h) s = .next (s.setPath h { p with hw :=
      { p.hw with move := some { m with phase := .retiring, guard := m.guard + 1 } } })) ∧
  (∀ (s : State) (h : Nat) (p : PathRec) (m : SinkMove), s.path h = some p → p.sk.move = some m → m.status = .bridging →
    m.guard + 1 = s.cbl.guard → exec (.sinkCellMoveSwitch h) s = .next (s.setPath h { p with sk :=
      { p.sk with cells := some m.new, missing := [], check := 0, loss := 0, move := none } })) ∧
  (∀ (s : State) (h : Nat) (p : PathRec) (m : BerthMove), s.path h = some p → p.bmove = some m → m.phase = .pending →
    p.state = .moving →
    ((∃ i o, i < p.k ∧ s.owner m.newC (m.newB + i) = some o ∧ o.handle ≠ h) →
      ∃ q, (s.beginBerths h).path h = some q ∧ q.bmove = none ∧ q.state = p.liveState ∧
        q.lastCompletion = some (.moveFailed .endpointBusy) ∧ (s.beginBerths h).cbl = s.cbl ∧
        sameOthers h s (s.beginBerths h)) ∧
    ((∀ i o, i < p.k → s.owner m.newC (m.newB + i) = some o → o.handle = h) → m.newB + p.k ≤ 432 →
      (s.beginBerths h).path h = some { p with bmove := some { m with phase := .bridge, guard := 0 } } ∧
      (∀ i, i < p.k → (s.beginBerths h).owner m.newC (m.newB + i) = some { handle := h, role := .bridge }) ∧
      (∀ c b, b < 432 → ¬ (c = m.newC ∧ m.newB ≤ b ∧ b < m.newB + p.k) →
        (s.beginBerths h).owner c b = s.owner c b) ∧ sameOthers h s (s.beginBerths h))) ∧
  (∀ (s : State) (h : Nat) (p : PathRec), s.TablesOk → s.settled h p → (s.ftm.frame + 1) % 16 = 0 → p.state = .moving →
    (∀ m, p.role = .loc → p.hw.move = none → p.bmove = some m →
      ∃ (u : State) (q : PathRec), exec .frameStart s = .next u ∧ u.path h = some q ∧
        (m.phase = .bridge → m.guard + 1 < s.cbl.guard →
          q.bmove = some { m with guard := m.guard + 1 } ∧ q.state = .moving ∧ q.sink = p.sink) ∧
        (m.phase = .bridge → s.cbl.guard ≤ m.guard + 1 →
          q.bmove = some { m with guard := m.guard + 1, phase := .retiring } ∧ q.state = .moving ∧
          q.sink = some (.carrier m.newC m.newB)) ∧
        (m.phase = .retiring → q.bmove = none ∧ q.state = .carrying ∧ q.sink = p.sink ∧
          q.lastCompletion = some .moveDone ∧ u.listed h = true)) ∧
    (∀ m, p.role = .source → p.bmove = none → p.hw.move = some m →
      ∃ (u : State) (q : PathRec), exec .frameStart s = .next u ∧ u.path h = some q ∧
        (m.phase = .accepted → q.hw.move = some { m with phase := .bridge, guard := 0 } ∧ q.state = .moving ∧
          q.hw.cells = p.hw.cells) ∧
        (m.phase = .bridge → m.guard + 1 < s.cbl.guard →
          q.hw.move = some { m with guard := m.guard + 1 } ∧ q.state = .moving ∧ q.hw.cells = p.hw.cells) ∧
        (m.phase = .bridge → s.cbl.guard ≤ m.guard + 1 →
          q.hw.move = some { m with guard := m.guard + 1, phase := .retiring } ∧ q.state = .moving ∧
          q.hw.cells = p.hw.cells) ∧
        (m.phase = .retiring → q.hw.move = none ∧ q.state = .carrying ∧ q.hw.cells = m.new ∧ q.hw.clean = 0 ∧
          q.lastCompletion = some .moveDone ∧ u.listed h = true))) ∧
  (∀ (s : State) (h : Nat) (p : PathRec) (m : SinkMove), s.TablesOk → s.settled h p → (s.ftm.frame + 1) % 16 = 0 →
    p.receives = true → p.bmove = none → p.hw.move = none → p.sk.loss = 0 → p.sk.move = some m →
    ∃ (u : State) (q : PathRec), exec .frameStart s = .next u ∧ u.path h = some q ∧ q.state = p.state ∧
      (m.status = .sent → q.sk.move = some { m with status := .bridging, guard := 0 } ∧ q.sk.cells = p.sk.cells) ∧
      (m.status = .bridging → m.guard + 1 < s.cbl.guard →
        q.sk.move = some { m with guard := m.guard + 1 } ∧ q.sk.cells = p.sk.cells) ∧
      (m.status = .bridging → s.cbl.guard ≤ m.guard + 1 → q.sk.move = none ∧ q.sk.cells = some m.new ∧
        q.sk.copy = some m.new ∧ q.sk.missing = [] ∧ q.sk.check = 0 ∧ q.sk.loss = 0))

/-! ### The condition monitor -/

/-- A soak or a period that is reached: SOAK_EXPIRY changes the declared state with both counters 0 and offers a RAISE or
CLEAR record, and REPEAT_EXPIRY offers a STANDING record, as the report type allows (R171, R172). The queue takes a
record, or marks and counts on its tail when it holds 64, or takes nothing under quiet (R174). That the two rows act alone of the boundary is the model's choice (log 27). -/
def Obligations.SoaksRepeatsAndQueue : Prop :=
  (∀ (s : State) (k : CondKind) (o : CondObj) (i : Inst), s.inst k o = some i → i.kind = k → i.obj = o →
    (i.declared = false → i.sample = true →
      soakLength (s.cnd.setting k).raiseM (s.cnd.setting k).raiseE ≤ min 72 (i.soak + 1) →
      ∃ u : State, exec (.soakExpiry k o) s = .next u ∧
        u.inst k o = some { i with declared := true, soak := 0, rep := 0 } ∧
        u.cnd.queue = (if (s.cnd.setting k).type = .off then s.cnd.queue
          else (s.cnd.offer ⟨k, o, .rise, s.ftm.mfCount, false, 0⟩).queue) ∧
        u = s.setCnd u.cnd ∧ u.cnd.settings = s.cnd.settings ∧ u.cnd.quiet = s.cnd.quiet ∧
        (∀ a b, condKey a b ≠ condKey k o → u.inst a b = s.inst a b)) ∧
    (i.declared = true → i.sample = false →
      soakLength (s.cnd.setting k).clearM (s.cnd.setting k).clearE ≤ min 72 (i.soak + 1) →
      ∃ u : State, exec (.soakExpiry k o) s = .next u ∧
        u.inst k o = some { i with declared := false, soak := 0, rep := 0 } ∧
        u.cnd.queue = (if (s.cnd.setting k).type = .off ∨ (s.cnd.setting k).type = .raiseOnly then s.cnd.queue
          else (s.cnd.offer ⟨k, o, .clear, s.ftm.mfCount, false, 0⟩).queue) ∧
        u = s.setCnd u.cnd ∧ u.cnd.settings = s.cnd.settings ∧ u.cnd.quiet = s.cnd.quiet) ∧
    (i.declared = true → i.sample = true →
      soakLength (s.cnd.setting k).repeatM (s.cnd.setting k).repeatE ≤ min 72 (i.rep + 1) →
      ∃ u : State, exec (.repeatExpiry k o) s = .next u ∧ u.inst k o = some { i with rep := 0 } ∧
        u.cnd.queue = (if (s.cnd.setting k).type = .repeating then
          (s.cnd.offer ⟨k, o, .standing, s.ftm.mfCount, false, 0⟩).queue else s.cnd.queue) ∧
        u = s.setCnd u.cnd)) ∧
  (∀ (c : Cnd) (r : CondRec), (c.quiet = true → c.offer r = c) ∧
    (c.quiet = false → c.queue.length < 64 → (c.offer r).queue = c.queue ++ [r]) ∧
    (∀ l e, c.quiet = false → c.queue = l ++ [e] → 64 ≤ c.queue.length →
      (c.offer r).queue = l ++ [{ e with overflow := true, dropped := min 127 (e.dropped + 1) }]))

/-- The host's commands on the condition monitor: READ CONDITIONS takes up to eight records from the head (R175), SET
REPORT checks and sets one kind (R176), QUIET and RESUME (R177), and DEFAULTS (R178). -/
def Obligations.ConditionCommands : Prop :=
  ∀ (s : State), s.ready →
    (exec .readConditions s = .next ((s.setCnd { s.cnd with queue := s.cnd.queue.drop 8 }).answer
      ([0, BitVec.ofNat 8 (min 8 s.cnd.queue.length)] ++ (s.cnd.queue.take 8).flatMap CondRec.out))) ∧
    (∀ p k, kindOf p.kind = some k → p.type < 4 → p.raiseM ≤ 7 → p.clearM ≤ 7 → p.repeatM ≤ 7 → p.raiseE ≤ 3 →
      p.clearE ≤ 3 → p.repeatE ≤ 3 → (condIsEvent k = true → p.type < 2) → Sparse.rising s.cnd.settings = true →
      ∃ u : State, exec (.setReport p) s = .next (u.answer [0]) ∧ u = s.setCnd u.cnd ∧
        typeOf p.type = some (u.cnd.setting k).type ∧
        (condIsEvent k = false →
          (u.cnd.setting k).raiseM = p.raiseM ∧ (u.cnd.setting k).raiseE = p.raiseE ∧
          (u.cnd.setting k).clearM = p.clearM ∧ (u.cnd.setting k).clearE = p.clearE ∧
          (u.cnd.setting k).repeatM = p.repeatM ∧ (u.cnd.setting k).repeatE = p.repeatE) ∧
        (∀ j, j ≠ k → u.cnd.setting j = s.cnd.setting j) ∧ u.cnd.insts = s.cnd.insts ∧ u.cnd.queue = s.cnd.queue ∧
        u.cnd.quiet = s.cnd.quiet) ∧
    (∀ p : ReportP, (kindOf p.kind = none ∨ 4 ≤ p.type ∨ 7 < p.raiseM ∨ 7 < p.clearM ∨ 7 < p.repeatM ∨ 3 < p.raiseE ∨
      3 < p.clearE ∨ 3 < p.repeatE ∨ ((p.kind = 11 ∨ p.kind = 12) ∧ 2 ≤ p.type)) →
      exec (.setReport p) s = .next (s.answer [1])) ∧
    (exec .quiet s = .next ((s.setCnd { s.cnd with quiet := true }).answer [0])) ∧
    (exec .defaults s = .next ((s.setCnd { s.cnd with settings := [], queue := [], quiet := false }).answer [0])) ∧
    (∃ u : State, exec .resume s = .next (u.answer [0]) ∧ u = s.setCnd u.cnd ∧ u.cnd.quiet = false ∧
      u.cnd.insts = s.cnd.insts ∧ u.cnd.settings = s.cnd.settings ∧
      ((s.cnd.insts.filter (fun e => e.2.declared && !((s.cnd.setting e.2.kind).type == .off))).length ≤ 64 →
        u.cnd.queue = (s.cnd.insts.filter (fun e => e.2.declared && !((s.cnd.setting e.2.kind).type == .off))).map
          (fun e => ⟨e.2.kind, e.2.obj, .standing, s.ftm.mfCount, false, 0⟩)))

/-- DEFAULTS restores every kind's settings to those of R176, empties the queue, makes quiet off and ends with OK; no
declared state and no counter changes, and no STANDING record is made (R178). -/
def Obligations.DefaultsRestoresSettings : Prop :=
  ∀ s : State, s.ready → ∃ u : State, exec .defaults s = .next (u.answer [0]) ∧ u = s.setCnd u.cnd ∧ u.cnd.queue = [] ∧
    u.cnd.quiet = false ∧ u.cnd.insts = s.cnd.insts ∧
    ∀ k, (condIsEvent k = true → (u.cnd.setting k).type = .raiseOnly) ∧
      (condIsEvent k = false → u.cnd.setting k =
        { type := .raiseClear, raiseM := 0, raiseE := 1, clearM := 3, clearE := 2, repeatM := 3, repeatE := 3 })

/-! ### The command port -/

/-- The rows of the port that are no command of R191: a byte written to the data address joins the input FIFO or is lost
at 16, a read returns the oldest byte or 0xFF, a write to the status address is ignored (R180, R181); a parameter byte
with no command, and an unknown code, end with INVALID, and a parameter byte with a command in progress is added
(R182). -/
def Obligations.PortBytes : Prop :=
  (∀ (s : State) (b : Byte),
    (s.cmd.inFifo.length < 16 → exec (.dataWrite b) s =
      .next (s.setCmd { s.cmd with inFifo := s.cmd.inFifo ++ [b] })) ∧
    (16 ≤ s.cmd.inFifo.length → exec (.dataWrite b) s = .next s) ∧
    exec (.statusWrite b) s = .next s ∧
    (s.cmd.outFifo = [] → exec .dataRead s = .next (s.setCmd { s.cmd with cpData := 0xFF })) ∧
    (∀ r c rest, s.cmd.outFifo = b :: r → s.cmd.staged = some (c :: rest) → exec .dataRead s =
      .next (s.setCmd { s.cmd with cpData := b, outFifo := r ++ [c], staged := some rest, waiting := false })) ∧
    (s.cmd.outFifo = [b] → s.cmd.staged = some [] → exec .dataRead s = .next (s.setCmd
      { s.cmd with cpData := b, outFifo := [], staged := none, waiting := false, phase := .command }))) ∧
  (∀ (s : State) (b : Byte), s.ready →
    (b < 0x80 → (s.cmd.phase = .result ∨ s.cmd.inProgress = none) →
      exec (.parameterByte b) s = .next (s.answer [1])) ∧
    (b < 0x80 → ∀ code l n, s.cmd.phase = .command → s.cmd.inProgress = some (code, l) → paramCount code = some n →
      l.length + 1 < n →
      exec (.parameterByte b) s = .next (s.setCmd { s.cmd with inProgress := some (code, l ++ [b]) })) ∧
    (¬ b < 0x80 → paramCount b.toNat = none → exec (.unknownCommand b) s = .next (s.answer [1])))

/-- A staged result is read straight through: its bytes come out in order, whatever its length, and after the last of
them the port is in COMMAND with nothing staged (R181, R184). -/
def Obligations.ResultReadsInOrder : Prop :=
  ∀ (s : State) (l : List Byte) (w : Bool), l ≠ [] →
    ((s.cmd.stage l w).reads l.length).1 = l ∧ ((s.cmd.stage l w).reads l.length).2.phase = .command ∧
    ((s.cmd.stage l w).reads l.length).2.staged = none ∧ ((s.cmd.stage l w).reads l.length).2.outFifo = [] ∧
    ((s.cmd.stage l w).reads l.length).2.waiting = false ∧
    ∀ n, n < l.length → ((s.cmd.stage l w).reads n).2.phase = .result

/-- The host's bytes and the command rows agree: the bytes that spell a command parse back to it, taking them in order from
COMMAND or RESULT serves it as the row does, and a row runs after every byte that waits (R181 to R183, R191; log 4). -/
def Obligations.HostBytesSpellCommands : Prop :=
  (∀ c : HostCmd, c.fits = true →
    paramCount c.code = some c.params.length ∧ parseCommand c.code c.params = some c ∧
    (∀ b ∈ c.params, b < 0x80) ∧ ¬ (BitVec.ofNat 8 c.code < 0x80)) ∧
  (∀ (s : State) (c : HostCmd), c.fits = true → s.ready → s.takeBytes (encodeCommand c) = s.hostCommand c) ∧
  (∀ (s : State) (c : HostCmd), s.drain.cmd.inFifo = [] ∧ s.hostCommand c = s.drain.hostCommand c)

/-- The interrupt line is asserted exactly while a result waits, the completion list holds an entry, or the condition
queue holds a record with quiet off; the INT bit of the status byte shows it; after device reset it is deasserted
(R185, R180). -/
def Obligations.InterruptLineAndStatus : Prop :=
  ∀ s : State,
    (s.intLine = true ↔ s.cmd.waiting = true ∨ s.ptb.completions ≠ [] ∨ (s.cnd.queue ≠ [] ∧ s.cnd.quiet = false)) ∧
    s.statusByte.getLsbD 3 = s.intLine ∧ s.statusByte.getLsbD 2 = s.cmd.started ∧
    (s.statusByte.getLsbD 6 = true ↔ s.cmd.phase = .result) ∧
    (s.cmd.phase = .command → s.statusByte.getLsbD 7 = decide (s.cmd.inFifo.length < 16)) ∧
    (s.cmd.phase = .result → s.statusByte.getLsbD 7 = !s.cmd.outFifo.isEmpty) ∧
    (s.cmd.phase = .execution → s.statusByte.getLsbD 7 = false) ∧ State.reset.intLine = false

/-! ### Commands on paths -/

/-- START (R186): BUSY once accepted, INVALID above station 15, and else the constants, clamped, the station state by
timing in doubt, and the sizing, with the ports of a changed group in HUNT and FILL (R16, R63, R91, R100). -/
def Obligations.StartSetsStation : Prop :=
  ∀ (s : State) (p : StartP), s.ready → s.TablesOk →
    (s.cmd.started = true → exec (.start p) s = .next (s.answer [2])) ∧
    (s.cmd.started = false → 15 < p.station → exec (.start p) s = .next (s.answer [1])) ∧
    (s.cmd.started = false → p.station ≤ 15 → ∃ u : State, exec (.start p) s = .next (u.answer [0]) ∧
      u.fil = { h := min 15 p.h, n := max 1 (min 8 p.n), i := max 1 (min 16 p.i), m := max 1 (min 255 p.m) } ∧
      u.cbl = { s.cbl with holdoff := max 1 (min 15 p.holdoff), guard := max 1 (min 15 p.guard) } ∧
      u.hwy = { s.hwy with number := some p.station, timeout := max 1 (min 15 p.timeout), block := p.expiry == 1,
                           station := if s.hwy.doubt then .mute else .warming, warm := 0 } ∧
      u.ftm = { s.ftm with mfCount := 0 } ∧ u.cmd = { s.cmd with started := true } ∧ u.clp.sizing = p.sizing ∧
      (∀ q, q < 32 → p.sizing.getLsbD (q / 4) = s.clp.sizing.getLsbD (q / 4) → u.rx q = s.rx q ∧ u.tx q = s.tx q) ∧
      (∀ q, q < 32 → p.sizing.getLsbD (q / 4) ≠ s.clp.sizing.getLsbD (q / 4) → (u.rx q).align = .hunt ∧
        (u.rx q).confirm = 0 ∧ (u.rx q).miss = 0 ∧ (u.tx q).data = false) ∧
      u.handles = s.handles ∧ u.ptb.completions = s.ptb.completions ∧ u.ptb.feeds = s.ptb.feeds ∧ u.crx = s.crx ∧
      u.cnd = s.cnd ∧ u.pending = s.pending)

/-- ADD PATH (R43 to R47): INVALID and REFUSED change nothing; an accepted ADD takes the lowest free handle, creates the
record in DEFINED, and binds its endpoints. -/
def Obligations.AddPathCreatesRecord : Prop :=
  ∀ (s : State) (p : AddP), s.ready → s.TablesOk →
    (p.inRange = false → exec (.addPath p) s = .next (s.answer [1])) ∧
    (∀ r, p.inRange = true → s.addRefusal p = some r → exec (.addPath p) s = .next (s.answer [3, r.byte])) ∧
    (p.inRange = true → s.addRefusal p = none → ∃ (u : State) (q : PathRec) (h : Nat), exec (.addPath p) s = .next (u.answer ([0] ++ be2 h)) ∧
      h < 1024 ∧ s.path h = none ∧ (∀ g, g < h → s.path g ≠ none) ∧ u.path h = some q ∧ sameOthers h s u ∧
      q.tag = p.tag ∧ q.role = p.roleOf ∧ q.k = p.size ∧ q.source = p.source.endpoint ∧ q.sink = p.sink.endpoint ∧
      q.remote = p.station ∧ q.label = p.labelGiven ∧ q.sqSet = p.sqGiven ∧ q.state = .defined ∧
      q.enablePending = false ∧ q.completionPending = false ∧ q.lastCompletion = none ∧ q.carry = [] ∧
      q.begun = false ∧ q.place = q.placeNow ∧
      (p.roleOf = .sink → q.fil = none) ∧
      (p.roleOf ≠ .sink → ∃ f, q.fil = some f ∧ f.store = List.replicate (centre p.size) 0xFF ∧ f.forced = none ∧
        f.slips = 0 ∧ f.offset = none) ∧
      (∀ x, p.source.endpoint = some (.port x) → u.rxPath x = some h) ∧
      (∀ x, p.sink.endpoint = some (.port x) → u.txPath x = some h) ∧
      (∀ c b, p.source.endpoint = some (.carrier c b) → ∃ e ∈ u.feed c, e.first = b ∧ e.k = p.size ∧ h ∈ e.handles) ∧
      (∀ c b, p.sink.endpoint = some (.carrier c b) → ∀ i, i < p.size →
        u.owner c (b + i) = some { handle := h, role := .primary }) ∧
      u.ptb.completions = s.ptb.completions ∧ u.hwy = s.hwy ∧ u.ftm = s.ftm ∧ u.fil = s.fil ∧ u.pending = s.pending)

/-- DELETE PATH (R48, R54): the record, its list entry, its berths, its bindings and its condition instances go; a
CARRYING source releases its run; every other record keeps what it has. A handle not in use ends with INVALID. -/
def Obligations.DeletePathRemovesRecord : Prop :=
  ∀ (s : State) (h : Nat), s.ready → s.TablesOk →
    (s.path h = none ∨ 1023 < h → exec (.deletePath h) s = .next (s.answer [1])) ∧
    (∀ p, s.path h = some p → h ≤ 1023 → ∃ u : State, exec (.deletePath h) s = .next (u.answer [0]) ∧
      u.path h = none ∧ sameOthers h s u ∧ u.ptb.completions = s.ptb.completions.filter (fun e => !(e.1 == h)) ∧
      (∀ c b o, u.owner c b = some o → o.handle ≠ h ∧ s.owner c b = some o) ∧
      (∀ c b o, s.owner c b = some o → o.handle ≠ h → u.owner c b = some o) ∧
      (∀ e ∈ u.cnd.insts, e.2.obj ≠ .path h) ∧
      (∀ x, p.source = some (.port x) → u.rxPath x = none) ∧ (∀ x, p.sink = some (.port x) → u.txPath x = none) ∧
      (∀ c b, p.source = some (.carrier c b) → ∀ e ∈ u.feed c, h ∉ e.handles) ∧
      (p.role = .loc → u.hwy = s.hwy) ∧
      (∀ r, p.role = .source → p.state = .carrying → p.hw.cells = some r →
        (s.hasRoom = true → u.hwy.sendQ = s.hwy.sendQ ++ [freshMsg (releaseOf s p r .deleted)]) ∧
        (∀ x, r ≤ x → x < r + p.k → (s.entry x).isOwn = true → u.entry x = .free)) ∧
      u.ftm = s.ftm ∧ u.fil = s.fil ∧ u.cnd.queue = s.cnd.queue ∧ u.cnd.settings = s.cnd.settings ∧
      u.pending = s.pending)

/-- ENABLE PATH and DISABLE PATH (R48 to R53): the refusals, what ENABLE makes of each role, and what DISABLE makes of a
DEFINED record, of a CARRYING local path and of a CARRYING source, whose run is released. -/
def Obligations.EnableAndDisablePath : Prop :=
  ∀ (s : State) (h : Nat) (p : PathRec), s.ready → s.TablesOk → h ≤ 1023 → s.path h = some p →
    (s.cmd.started = false → exec (.enablePath h) s = .next (s.answer [4])) ∧
    (s.cmd.started = true → p.remote.isSome = true → p.remote = s.hwy.number →
      exec (.enablePath h) s = .next (s.answer [3, 1])) ∧
    (s.cmd.started = true → (p.remote = none ∨ p.remote ≠ s.hwy.number) →
      (p.role = .loc → p.state = .defined → exec (.enablePath h) s =
        .next ((s.setPath h { p with enablePending := true }).answer [0])) ∧
      (p.role = .source → (p.state = .defined ∨ p.state = .blocked ∨ p.state = .stranded) →
        ∃ q : PathRec, exec (.enablePath h) s = .next ((s.setPath h q).answer [0]) ∧ q.state = .waiting ∧ q.hw.attempt = 0 ∧
          q.hw.backoff = none ∧ q.hw.refusal = none ∧ q = { p with state := q.state, hw := q.hw }) ∧
      (p.role = .sink → p.state = .defined →
        ∃ q : PathRec, exec (.enablePath h) s = .next ((s.setPath h q).answer [0]) ∧ q.state = .listening ∧ q.sk.check = 0 ∧
          q = { p with state := q.state, sk := q.sk }) ∧
      (p.state ≠ .defined → p.state ≠ .blocked → p.state ≠ .stranded →
        exec (.enablePath h) s = .next ((s.setPath h p).answer [0]))) ∧
    (p.state = .defined → exec (.disablePath h) s =
      .next ((s.setPath h { p with enablePending := false }).answer [0])) ∧
    (∀ f, p.fil = some f → f.forced = none → p.bmove = none → p.hw.move = none → p.state = .carrying →
      ∃ (u : State) (q : PathRec), exec (.disablePath h) s = .next (u.answer [0]) ∧ u.path h = some q ∧ q.state = .defined ∧
        q.enablePending = false ∧ q.fil = some f ∧ q.lastCompletion = p.lastCompletion ∧ sameOthers h s u ∧
        u.ptb.completions = s.ptb.completions ∧ sameButPaths s u ∧
        (p.role = .loc → u.hwy = s.hwy) ∧
        (∀ r, p.role = .source → p.hw.cells = some r → q.hw.cells = none ∧ q.hw.attempt = 0 ∧ q.hw.backoff = none ∧
          q.hw.refusal = none ∧ (∀ x, r ≤ x → x < r + p.k → (s.entry x).isOwn = true → u.entry x = .free) ∧
          sameOutside r p.k s u ∧
          (s.hasRoom = true → u.hwy.sendQ = s.hwy.sendQ ++ [freshMsg (releaseOf s p r .disabled)])))

/-- MOVE PATH, RECENTRE and NUDGE (R48, R60, R78, R80, R147, R151): the ranges, NOT_STARTED, BUSY and NOT_LIVE, the
checks of a move of berths, and the move or the forced operation that begins, a RECENTRE with the limit M that applies to
the path (R63, log 31). -/
def Obligations.MoveAndForcedCommands : Prop :=
  ∀ (s : State) (h : Nat) (p : PathRec), s.ready → h ≤ 1023 → s.path h = some p → s.cmd.started = true →
    (∀ form c b, 1 < form ∨ (form = 0 ∧ (3 < c ∨ 431 < b)) → exec (.movePath h form c b) s = .next (s.answer [1])) ∧
    (∀ c b, c ≤ 3 → b ≤ 431 → p.state = .moving → exec (.movePath h 0 c b) s = .next (s.answer [2]) ∧
      exec (.movePath h 1 c b) s = .next (s.answer [2])) ∧
    (∀ c b, p.role = .source → p.state = .carrying → ∃ q : PathRec, exec (.movePath h 1 c b) s =
      .next ((s.setPath h q).answer [0]) ∧ q.state = .moving ∧ q.hw.cells = p.hw.cells ∧
      q.hw.move = some { new := none, old := p.hw.cells.getD 0, phase := .seeking, guard := 0 } ∧
      q = { p with state := q.state, hw := q.hw }) ∧
    (∀ c b c' b', c ≤ 3 → b ≤ 431 → p.sink = some (.carrier c' b') →
      ((p.role = .loc ∧ p.state = .carrying) ∨ (p.role = .sink ∧ p.state = .receiving)) →
      (¬ (b % p.k = 0 ∧ b + p.k ≤ 432) → exec (.movePath h 0 c b) s = .next (s.answer [3, 2])) ∧
      (b % p.k = 0 → b + p.k ≤ 432 → (c = c' ∧ b = b') ∨ (∃ i o, i < p.k ∧ s.owner c (b + i) = some o ∧ o.handle ≠ h) →
        exec (.movePath h 0 c b) s = .next (s.answer [3, 5])) ∧
      (b % p.k = 0 → b + p.k ≤ 432 → ¬ (c = c' ∧ b = b') →
        (∀ i, i < p.k → ∀ o, s.owner c (b + i) = some o → o.handle = h) →
        ∀ m : BerthMove, m = { newC := c, newB := b, oldC := c', oldB := b', phase := .pending, guard := 0 } →
        exec (.movePath h 0 c b) s =
          .next ((s.setPath h { p with state := .moving, bmove := some m }).answer [0]))) ∧
    (p.live = false → exec (.recentre h) s = .next (s.answer [9])) ∧
    (∀ f, p.fil = some f → p.live = true →
      (f.forced ≠ none → exec (.recentre h) s = .next (s.answer [2])) ∧
      (f.forced = none → ∀ g : Fil,
        g = { f with forced := some { nudge := false, steps := 0, limit := (s.filFor p).m, dir := none } } →
        exec (.recentre h) s = .next ((s.setPath h { p with fil := some g }).answer [0])) ∧
      (∀ dir count, count = 0 ∨ 1 < dir → exec (.nudge h dir count) s = .next (s.answer [1])) ∧
      (∀ dir count, 0 < count → dir ≤ 1 → f.forced ≠ none → exec (.nudge h dir count) s = .next (s.answer [2])) ∧
      (∀ dir count, 0 < count → dir ≤ 1 → f.forced = none → ∀ (g : Fil) (o : Forced),
        o = { nudge := true, steps := 0, limit := count, dir := some (if dir = 0 then .down else .up) } →
        g = { f with forced := some o } →
        exec (.nudge h dir count) s = .next ((s.setPath h { p with fil := some g }).answer [0])))

/-- READ PATH, READ CELLS and READ STATION (R187, R188): the ranges, the entries in cell order, and the counts that READ
STATION returns to 0; nothing else changes. That an absent field reads as 0xFF is the model's reading (log 14). -/
def Obligations.ReadCommands : Prop :=
  ∀ (s : State), s.ready →
    (∀ h, 1023 < h ∨ s.path h = none → exec (.readPath h) s = .next (s.answer [1])) ∧
    (∀ h p, h ≤ 1023 → s.path h = some p → exec (.readPath h) s = .next (s.answer (s.pathOut h p)) ∧
      ((∀ l, p.label = some l → l.length = 8) → (∀ l, s.confirmed p = some l → l.length = 8) →
        ∃ rest, s.pathOut h p = [0, 1, 34] ++ be2 h ++ be2 p.tag ++ [Role.out p.role, byteOf p.k] ++ rest)) ∧
    (∀ x n, 1023 < x ∨ n = 0 ∨ 16 < n ∨ 1024 < x + n → exec (.readCells x n) s = .next (s.answer [1])) ∧
    (∀ x n, 0 < n → n ≤ 16 → x + n ≤ 1024 → exec (.readCells x n) s = .next (s.answer
      ([0, BitVec.ofNat 8 n] ++ (List.range n).flatMap (fun i => (s.entry (x + i)).out)))) ∧
    (s.TablesOk → ∃ u : State, exec .readStation s = .next (u.answer s.stationOut) ∧ u.hwy = { s.hwy with msgCheck := 0 } ∧
      (∀ c, c < 4 → u.carrier c = { s.carrier c with ctlErr := 0 }) ∧ u.crx.scan = s.crx.scan ∧ u.ftm = s.ftm ∧
      u.clp = s.clp ∧ u.fil = s.fil ∧ u.cbl = s.cbl ∧ u.ptb = s.ptb ∧ u.cnd = s.cnd ∧ u.cmd = s.cmd ∧
      u.pending = s.pending)

/-- SENSE removes the oldest entry of the completion list and returns its handle, its code with the reason or cause, the
path's state and the superseded count, which becomes 0 with completion pending no; the last completion is kept, a later
post appends a new entry, and an empty list ends with INVALID (R57). -/
def Obligations.SenseReturnsOldestCompletion : Prop :=
  ∀ (s : State), s.ready → s.CompletionsOk →
    (s.ptb.completions = [] → exec .sense s = .next (s.answer [1])) ∧
    (∀ h c rest p, s.ptb.completions = (h, c) :: rest → s.path h = some p →
      ∃ u : State, exec .sense s = .next (u.answer ([0] ++ be2 h ++ c.out ++ [p.state.out, BitVec.ofNat 8 p.superseded])) ∧
        u.path h = some { p with superseded := 0, completionPending := false } ∧ u.ptb.completions = rest ∧
        sameOthers h s u ∧ sameButPaths s u ∧ u.hwy = s.hwy ∧
        ∀ c', (u.post h c').ptb.completions = rest ++ [(h, c')])

/-! ### Words -/

/-- Messages, headers and contents survive the highway: a message that passes decodes to itself and every word that
decodes is the encoding of its message, the same for valid headers, and the cells of a run that all arrive good give the
content that was sent (R109, R110, R113, R139, R190). -/
def Obligations.HighwayWordsRoundTrip : Prop :=
  (∀ m : Msg, m.passes = true → decodeMsg (encodeMsg m) = some m) ∧
  (∀ (w : BitVec 51) (m : Msg), decodeMsg w = some m → encodeMsg m = w ∧ m.passes = true) ∧
  (∀ d : Header, d.station < 16 → d.tag < 65536 → d.index < 16 → decodeHeader (encodeHeader d) = some d) ∧
  (∀ (w : BitVec 42) (d : Header), decodeHeader w = some d → encodeHeader d = w ∧ d.station < 16 ∧ d.tag < 65536 ∧
    d.index < 16) ∧
  (∀ (k : Nat) (code : Code) (bytes : List Byte) (got : Sparse RxCell), 0 < k → code ≠ .maintenance → code ≠ .idle →
    bytes.length = firstBytes code + 90 * (k - 1) →
    (∀ i, i < k → ∃ c, Sparse.find got i = some c ∧ c.code = codeAt code i ∧ c.payload = positions code bytes i) →
    cellContent k got = { code := code, bytes := bytes })

/-! ### Invariants that every step keeps -/

/-- The counters and queues of the frame timer, the receivers, the highway, the condition monitor and the command port
stay within their ranges. -/
def Obligations.StepKeepsBounds : Prop := ∀ s t : State, s.Bounded → step s = .next t → t.Bounded

/-- The command port and the scan engine stay in agreement. -/
def Obligations.StepKeepsPortAgreement : Prop := ∀ s t : State, s.PortOk → step s = .next t → t.PortOk

/-- A station that is not started or MUTE holds no message and no claim and drives nothing, and no record of it claims,
carries or receives cells. -/
def Obligations.StepKeepsStationSilence : Prop :=
  ∀ s t : State, s.TablesOk → s.StationOk → s.MuteOk → step s = .next t → t.StationOk ∧ t.MuteOk

/-- The tables of the blocks stay in their canonical form. -/
def Obligations.StepKeepsTables : Prop := ∀ s t : State, s.TablesOk → step s = .next t → t.TablesOk

/-- The completion list stays without repetition and in agreement with the records. -/
def Obligations.StepKeepsCompletions : Prop :=
  ∀ s t : State, s.TablesOk → s.CompletionsOk → step s = .next t → t.CompletionsOk

/-- Every record stays within its ranges: the store within its capacity, the carry queue within two entries, the counts
within their limits. -/
def Obligations.StepKeepsRecords : Prop :=
  ∀ s t : State, s.TablesOk → s.PathsOk → step s = .next t → t.PathsOk

/-- What ADD gives a record stays until DELETE: no command changes the tag, role, size, source, remote station, label or
squelch set of a record (R37). -/
def Obligations.RecordIdentityIsFixed : Prop :=
  ∀ (c : Instr) (s t : State) (h : Nat) (p q : PathRec), s.TablesOk → s.cmd.inFifo = [] → exec c s = .next t →
    s.path h = some p → t.path h = some q →
    q.tag = p.tag ∧ q.role = p.role ∧ q.k = p.k ∧ q.source = p.source ∧ q.remote = p.remote ∧ q.label = p.label ∧
    q.sqSet = p.sqSet
end

