-- ==== Sys2Proof/Laws/Sparse.lean ====
section
/-! SUPPORT. What the operations on sparse tables do: reading after writing, and the canonical form they keep. -/

namespace Sys2Proof

variable {α β : Type}

@[simp] theorem Sparse.find_insert_self (m : Sparse α) (k : Nat) (v : α) :
    Sparse.find (Sparse.insert m k v) k = some v := by
  induction m with
  | nil => simp [Sparse.insert, Sparse.find]
  | cons e r ih =>
    obtain ⟨j, w⟩ := e
    simp only [Sparse.insert]
    split
    · simp [Sparse.find]
    · split
      · simp [Sparse.find]
      · rename_i h1 h2
        simp only [Sparse.find, if_neg (Ne.symm h2 : ¬ j = k), ih]

theorem Sparse.find_insert_ne (m : Sparse α) {k j : Nat} (v : α) (h : j ≠ k) :
    Sparse.find (Sparse.insert m k v) j = Sparse.find m j := by
  induction m with
  | nil => simp [Sparse.insert, Sparse.find, Ne.symm h]
  | cons e r ih =>
    obtain ⟨i, w⟩ := e
    simp only [Sparse.insert]
    split
    · simp [Sparse.find, Ne.symm h]
    · split
      · rename_i h1 h2
        subst h2
        simp [Sparse.find, Ne.symm h]
      · simp only [Sparse.find, ih]

theorem Sparse.find_erase_ne (m : Sparse α) {k j : Nat} (h : j ≠ k) :
    Sparse.find (Sparse.erase m k) j = Sparse.find m j := by
  induction m with
  | nil => rfl
  | cons e r ih =>
    obtain ⟨i, w⟩ := e
    simp only [Sparse.erase]
    split
    · rename_i h1
      subst h1
      simp [Sparse.find, Ne.symm h]
    · simp only [Sparse.find, ih]

/-- In a rising table nothing is listed below its first number. -/
theorem Sparse.find_eq_none_of_lt {j : Nat} {v : α} {r : Sparse α} {k : Nat}
    (h : Sparse.rising ((j, v) :: r) = true) (hk : k < j) : Sparse.find ((j, v) :: r) k = none := by
  induction r generalizing j v with
  | nil => simp [Sparse.find]; omega
  | cons e r ih =>
    obtain ⟨i, w⟩ := e
    simp only [Sparse.rising, Bool.and_eq_true, decide_eq_true_eq] at h
    have := ih h.2 (by omega)
    simp only [Sparse.find] at this ⊢
    rw [if_neg (by omega)]
    exact this

theorem Sparse.rising_tail {e : Nat × α} {r : Sparse α} (h : Sparse.rising (e :: r) = true) :
    Sparse.rising r = true := by
  obtain ⟨j, v⟩ := e
  cases r with
  | nil => rfl
  | cons e r => obtain ⟨i, w⟩ := e; simp only [Sparse.rising, Bool.and_eq_true] at h; exact h.2

theorem Sparse.find_erase_self (m : Sparse α) (k : Nat) (h : Sparse.rising m = true) :
    Sparse.find (Sparse.erase m k) k = none := by
  induction m with
  | nil => rfl
  | cons e r ih =>
    obtain ⟨j, v⟩ := e
    simp only [Sparse.erase]
    split
    · rename_i h1
      subst h1
      cases r with
      | nil => rfl
      | cons e r =>
        obtain ⟨i, w⟩ := e
        have h' := h
        simp only [Sparse.rising, Bool.and_eq_true, decide_eq_true_eq] at h'
        exact Sparse.find_eq_none_of_lt h'.2 h'.1
    · rename_i h1
      simp only [Sparse.find, if_neg h1]
      exact ih (Sparse.rising_tail h)

/-- The numbers of a table. -/
def Sparse.keys (m : Sparse α) : List Nat := m.map (·.1)

/-- A table is rising exactly when its numbers are in strictly rising order. -/
theorem Sparse.rising_iff_pairwise (m : Sparse α) : Sparse.rising m = true ↔ (Sparse.keys m).Pairwise (· < ·) := by
  induction m with
  | nil => simp [Sparse.rising, Sparse.keys]
  | cons e r ih =>
    obtain ⟨j, v⟩ := e
    cases r with
    | nil => simp [Sparse.rising, Sparse.keys]
    | cons e r =>
      obtain ⟨i, w⟩ := e
      simp only [Sparse.rising, Bool.and_eq_true, decide_eq_true_eq, ih]
      simp only [Sparse.keys, List.map_cons, List.pairwise_cons]
      constructor
      · rintro ⟨h1, h2, h3⟩
        refine ⟨?_, h2, h3⟩
        intro a ha
        rcases List.mem_cons.mp ha with rfl | ha
        · exact h1
        · exact Nat.lt_trans h1 (h2 a ha)
      · rintro ⟨h1, h2, h3⟩
        exact ⟨h1 i (by simp), h2, h3⟩

theorem Sparse.mem_keys_insert {m : Sparse α} {k j : Nat} {v : α} (h : j ∈ Sparse.keys (Sparse.insert m k v)) :
    j = k ∨ j ∈ Sparse.keys m := by
  induction m with
  | nil => simpa [Sparse.insert, Sparse.keys] using h
  | cons e r ih =>
    obtain ⟨i, w⟩ := e
    simp only [Sparse.insert] at h
    split at h
    · simp only [Sparse.keys, List.map_cons, List.mem_cons] at h ⊢; tauto
    · split at h
      · simp only [Sparse.keys, List.map_cons, List.mem_cons] at h ⊢; tauto
      · simp only [Sparse.keys, List.map_cons, List.mem_cons] at h ⊢
        rcases h with h | h
        · exact .inr (.inl h)
        · rcases ih h with h | h
          · exact .inl h
          · exact .inr (.inr h)

theorem Sparse.rising_insert (m : Sparse α) (k : Nat) (v : α) (h : Sparse.rising m = true) :
    Sparse.rising (Sparse.insert m k v) = true := by
  induction m with
  | nil => rfl
  | cons e r ih =>
    obtain ⟨j, w⟩ := e
    simp only [Sparse.insert]
    split
    · rename_i h1
      simp only [Sparse.rising, Bool.and_eq_true, decide_eq_true_eq]
      exact ⟨h1, h⟩
    · split
      · rename_i h1 h2
        subst h2
        rw [Sparse.rising_iff_pairwise] at h ⊢
        simpa [Sparse.keys] using h
      · rename_i h1 h2
        have h3 := ih (Sparse.rising_tail h)
        rw [Sparse.rising_iff_pairwise] at h h3 ⊢
        simp only [Sparse.keys, List.map_cons, List.pairwise_cons] at h h3 ⊢
        refine ⟨fun a ha => ?_, h3⟩
        rcases Sparse.mem_keys_insert (m := r) (v := v) (by simpa [Sparse.keys] using ha) with rfl | ha
        · omega
        · exact h.1 a ha

theorem Sparse.keys_erase_sublist (m : Sparse α) (k : Nat) :
    (Sparse.keys (Sparse.erase m k)).Sublist (Sparse.keys m) := by
  induction m with
  | nil => simp [Sparse.erase]
  | cons e r ih =>
    obtain ⟨j, w⟩ := e
    simp only [Sparse.erase]
    split
    · exact List.sublist_cons_self _ _
    · simpa [Sparse.keys] using ih

theorem Sparse.rising_erase (m : Sparse α) (k : Nat) (h : Sparse.rising m = true) :
    Sparse.rising (Sparse.erase m k) = true := by
  rw [Sparse.rising_iff_pairwise] at h ⊢
  exact h.sublist (Sparse.keys_erase_sublist m k)

theorem Sparse.rising_filter (f : Nat × α → Bool) (m : Sparse α) (h : Sparse.rising m = true) :
    Sparse.rising (m.filter f) = true := by
  rw [Sparse.rising_iff_pairwise] at h ⊢
  exact h.sublist ((List.filter_sublist (p := f) (l := m)).map _)

theorem Sparse.keys_mapVals (f : Nat → α → β) (m : Sparse α) : Sparse.keys (Sparse.mapVals f m) = Sparse.keys m := by
  simp [Sparse.keys, Sparse.mapVals, Function.comp_def]

theorem Sparse.rising_mapVals (f : Nat → α → β) (m : Sparse α) (h : Sparse.rising m = true) :
    Sparse.rising (Sparse.mapVals f m) = true := by
  rw [Sparse.rising_iff_pairwise] at h ⊢
  rwa [Sparse.keys_mapVals]

theorem Sparse.find_mapVals (f : Nat → α → β) (m : Sparse α) (k : Nat) :
    Sparse.find (Sparse.mapVals f m) k = (Sparse.find m k).map (f k) := by
  induction m with
  | nil => rfl
  | cons e r ih =>
    obtain ⟨j, v⟩ := e
    simp only [Sparse.mapVals, List.map_cons, Sparse.find]
    split
    · rename_i h; subst h; rfl
    · exact ih

theorem Sparse.mem_of_find {m : Sparse α} {k : Nat} {v : α} (h : Sparse.find m k = some v) : (k, v) ∈ m := by
  induction m with
  | nil => simp [Sparse.find] at h
  | cons e r ih =>
    obtain ⟨j, w⟩ := e
    simp only [Sparse.find] at h
    split at h
    · rename_i h1; subst h1; cases h; simp
    · exact List.mem_cons_of_mem _ (ih h)

/-- In a rising table every entry is found. -/
theorem Sparse.find_of_mem {m : Sparse α} {k : Nat} {v : α} (h : Sparse.rising m = true) (hm : (k, v) ∈ m) :
    Sparse.find m k = some v := by
  induction m with
  | nil => simp at hm
  | cons e r ih =>
    obtain ⟨j, w⟩ := e
    simp only [Sparse.find]
    rcases List.mem_cons.mp hm with hm | hm
    · cases hm; simp
    · have hk : k ∈ Sparse.keys r := List.mem_map.mpr ⟨(k, v), hm, rfl⟩
      have h' := h
      rw [Sparse.rising_iff_pairwise] at h'
      simp only [Sparse.keys, List.map_cons, List.pairwise_cons] at h'
      have : j < k := h'.1 k (by simpa [Sparse.keys] using hk)
      rw [if_neg (by omega)]
      exact ih (Sparse.rising_tail h) hm

theorem Sparse.mem_erase {m : Sparse α} {k : Nat} {e : Nat × α} (h : e ∈ Sparse.erase m k) : e ∈ m := by
  induction m with
  | nil => simp [Sparse.erase] at h
  | cons x r ih =>
    obtain ⟨j, w⟩ := x
    simp only [Sparse.erase] at h
    split at h
    · exact List.mem_cons_of_mem _ h
    · rcases List.mem_cons.mp h with rfl | h
      · simp
      · exact List.mem_cons_of_mem _ (ih h)

theorem Sparse.mem_insert {m : Sparse α} {k : Nat} {v : α} {e : Nat × α} (h : e ∈ Sparse.insert m k v) :
    e = (k, v) ∨ e ∈ m := by
  induction m with
  | nil => simpa [Sparse.insert] using h
  | cons x r ih =>
    obtain ⟨j, w⟩ := x
    simp only [Sparse.insert] at h
    split at h
    · simpa using h
    · split at h
      · simp only [List.mem_cons] at h ⊢; tauto
      · rcases List.mem_cons.mp h with rfl | h
        · simp
        · rcases ih h with h | h
          · exact .inl h
          · exact .inr (List.mem_cons_of_mem _ h)

section
variable [DecidableEq α]

theorem Sparse.get_put_ne (d : α) (m : Sparse α) {k j : Nat} (v : α) (h : j ≠ k) :
    Sparse.get d (Sparse.put d m k v) j = Sparse.get d m j := by
  unfold Sparse.get Sparse.put
  split
  · rw [Sparse.find_erase_ne m h]
  · rw [Sparse.find_insert_ne m v h]

theorem Sparse.get_put_self (d : α) (m : Sparse α) (k : Nat) (v : α) (h : Sparse.rising m = true) :
    Sparse.get d (Sparse.put d m k v) k = v := by
  unfold Sparse.get Sparse.put
  split
  · rename_i h1; rw [Sparse.find_erase_self m k h, h1]; rfl
  · rw [Sparse.find_insert_self]; rfl

theorem Sparse.rising_put (d : α) (m : Sparse α) (k : Nat) (v : α) (h : Sparse.rising m = true) :
    Sparse.rising (Sparse.put d m k v) = true := by
  unfold Sparse.put
  split
  · exact Sparse.rising_erase m k h
  · exact Sparse.rising_insert m k v h

/-- The canonical form is a rising one. -/
theorem Sparse.rising_of_wf {d : α} {m : Sparse α} (h : Sparse.wf d m = true) : Sparse.rising m = true := by
  simp only [Sparse.wf, Bool.and_eq_true] at h; exact h.1

/-- Writing keeps the canonical form. -/
theorem Sparse.wf_put (d : α) (m : Sparse α) (k : Nat) (v : α) (h : Sparse.wf d m = true) :
    Sparse.wf d (Sparse.put d m k v) = true := by
  simp only [Sparse.wf, Bool.and_eq_true, List.all_eq_true, decide_eq_true_eq] at h ⊢
  refine ⟨Sparse.rising_put d m k v h.1, fun e he => ?_⟩
  unfold Sparse.put at he
  split at he
  · exact h.2 e (Sparse.mem_erase he)
  · rename_i hv
    rcases Sparse.mem_insert he with rfl | he
    · exact hv
    · exact h.2 e he

end

end Sys2Proof
end

