-- ==== Sys2Proof/Laws/State.lean ====
section
/-! SUPPORT. One lemma per block per update of the state, true by rfl, so that no proof unfolds an update. -/

namespace Sys2Proof.Machine

/-! ### `State.setFtm` -/

@[simp] theorem State.setFtm_ftm (s : State) (x : Ftm) : (s.setFtm x).ftm = x := rfl
@[simp] theorem State.setFtm_clp (s : State) (x : Ftm) : (s.setFtm x).clp = s.clp := rfl
@[simp] theorem State.setFtm_crx (s : State) (x : Ftm) : (s.setFtm x).crx = s.crx := rfl
@[simp] theorem State.setFtm_fil (s : State) (x : Ftm) : (s.setFtm x).fil = s.fil := rfl
@[simp] theorem State.setFtm_cbl (s : State) (x : Ftm) : (s.setFtm x).cbl = s.cbl := rfl
@[simp] theorem State.setFtm_hwy (s : State) (x : Ftm) : (s.setFtm x).hwy = s.hwy := rfl
@[simp] theorem State.setFtm_ptb (s : State) (x : Ftm) : (s.setFtm x).ptb = s.ptb := rfl
@[simp] theorem State.setFtm_cnd (s : State) (x : Ftm) : (s.setFtm x).cnd = s.cnd := rfl
@[simp] theorem State.setFtm_cmd (s : State) (x : Ftm) : (s.setFtm x).cmd = s.cmd := rfl
@[simp] theorem State.setFtm_pending (s : State) (x : Ftm) : (s.setFtm x).pending = s.pending := rfl
@[simp] theorem State.setFtm_setFtm (s : State) (x y : Ftm) : (s.setFtm x).setFtm y = s.setFtm y := rfl
@[simp] theorem State.setFtm_self (s : State) : s.setFtm s.ftm = s := rfl

/-! ### `State.setClp` -/

@[simp] theorem State.setClp_ftm (s : State) (x : Clp) : (s.setClp x).ftm = s.ftm := rfl
@[simp] theorem State.setClp_clp (s : State) (x : Clp) : (s.setClp x).clp = x := rfl
@[simp] theorem State.setClp_crx (s : State) (x : Clp) : (s.setClp x).crx = s.crx := rfl
@[simp] theorem State.setClp_fil (s : State) (x : Clp) : (s.setClp x).fil = s.fil := rfl
@[simp] theorem State.setClp_cbl (s : State) (x : Clp) : (s.setClp x).cbl = s.cbl := rfl
@[simp] theorem State.setClp_hwy (s : State) (x : Clp) : (s.setClp x).hwy = s.hwy := rfl
@[simp] theorem State.setClp_ptb (s : State) (x : Clp) : (s.setClp x).ptb = s.ptb := rfl
@[simp] theorem State.setClp_cnd (s : State) (x : Clp) : (s.setClp x).cnd = s.cnd := rfl
@[simp] theorem State.setClp_cmd (s : State) (x : Clp) : (s.setClp x).cmd = s.cmd := rfl
@[simp] theorem State.setClp_pending (s : State) (x : Clp) : (s.setClp x).pending = s.pending := rfl
@[simp] theorem State.setClp_setClp (s : State) (x y : Clp) : (s.setClp x).setClp y = s.setClp y := rfl
@[simp] theorem State.setClp_self (s : State) : s.setClp s.clp = s := rfl

/-! ### `State.setCrx` -/

@[simp] theorem State.setCrx_ftm (s : State) (x : Crx) : (s.setCrx x).ftm = s.ftm := rfl
@[simp] theorem State.setCrx_clp (s : State) (x : Crx) : (s.setCrx x).clp = s.clp := rfl
@[simp] theorem State.setCrx_crx (s : State) (x : Crx) : (s.setCrx x).crx = x := rfl
@[simp] theorem State.setCrx_fil (s : State) (x : Crx) : (s.setCrx x).fil = s.fil := rfl
@[simp] theorem State.setCrx_cbl (s : State) (x : Crx) : (s.setCrx x).cbl = s.cbl := rfl
@[simp] theorem State.setCrx_hwy (s : State) (x : Crx) : (s.setCrx x).hwy = s.hwy := rfl
@[simp] theorem State.setCrx_ptb (s : State) (x : Crx) : (s.setCrx x).ptb = s.ptb := rfl
@[simp] theorem State.setCrx_cnd (s : State) (x : Crx) : (s.setCrx x).cnd = s.cnd := rfl
@[simp] theorem State.setCrx_cmd (s : State) (x : Crx) : (s.setCrx x).cmd = s.cmd := rfl
@[simp] theorem State.setCrx_pending (s : State) (x : Crx) : (s.setCrx x).pending = s.pending := rfl
@[simp] theorem State.setCrx_setCrx (s : State) (x y : Crx) : (s.setCrx x).setCrx y = s.setCrx y := rfl
@[simp] theorem State.setCrx_self (s : State) : s.setCrx s.crx = s := rfl

/-! ### `State.setFil` -/

@[simp] theorem State.setFil_ftm (s : State) (x : FilConsts) : (s.setFil x).ftm = s.ftm := rfl
@[simp] theorem State.setFil_clp (s : State) (x : FilConsts) : (s.setFil x).clp = s.clp := rfl
@[simp] theorem State.setFil_crx (s : State) (x : FilConsts) : (s.setFil x).crx = s.crx := rfl
@[simp] theorem State.setFil_fil (s : State) (x : FilConsts) : (s.setFil x).fil = x := rfl
@[simp] theorem State.setFil_cbl (s : State) (x : FilConsts) : (s.setFil x).cbl = s.cbl := rfl
@[simp] theorem State.setFil_hwy (s : State) (x : FilConsts) : (s.setFil x).hwy = s.hwy := rfl
@[simp] theorem State.setFil_ptb (s : State) (x : FilConsts) : (s.setFil x).ptb = s.ptb := rfl
@[simp] theorem State.setFil_cnd (s : State) (x : FilConsts) : (s.setFil x).cnd = s.cnd := rfl
@[simp] theorem State.setFil_cmd (s : State) (x : FilConsts) : (s.setFil x).cmd = s.cmd := rfl
@[simp] theorem State.setFil_pending (s : State) (x : FilConsts) : (s.setFil x).pending = s.pending := rfl
@[simp] theorem State.setFil_setFil (s : State) (x y : FilConsts) : (s.setFil x).setFil y = s.setFil y := rfl
@[simp] theorem State.setFil_self (s : State) : s.setFil s.fil = s := rfl

/-! ### `State.setCbl` -/

@[simp] theorem State.setCbl_ftm (s : State) (x : Cbl) : (s.setCbl x).ftm = s.ftm := rfl
@[simp] theorem State.setCbl_clp (s : State) (x : Cbl) : (s.setCbl x).clp = s.clp := rfl
@[simp] theorem State.setCbl_crx (s : State) (x : Cbl) : (s.setCbl x).crx = s.crx := rfl
@[simp] theorem State.setCbl_fil (s : State) (x : Cbl) : (s.setCbl x).fil = s.fil := rfl
@[simp] theorem State.setCbl_cbl (s : State) (x : Cbl) : (s.setCbl x).cbl = x := rfl
@[simp] theorem State.setCbl_hwy (s : State) (x : Cbl) : (s.setCbl x).hwy = s.hwy := rfl
@[simp] theorem State.setCbl_ptb (s : State) (x : Cbl) : (s.setCbl x).ptb = s.ptb := rfl
@[simp] theorem State.setCbl_cnd (s : State) (x : Cbl) : (s.setCbl x).cnd = s.cnd := rfl
@[simp] theorem State.setCbl_cmd (s : State) (x : Cbl) : (s.setCbl x).cmd = s.cmd := rfl
@[simp] theorem State.setCbl_pending (s : State) (x : Cbl) : (s.setCbl x).pending = s.pending := rfl
@[simp] theorem State.setCbl_setCbl (s : State) (x y : Cbl) : (s.setCbl x).setCbl y = s.setCbl y := rfl
@[simp] theorem State.setCbl_self (s : State) : s.setCbl s.cbl = s := rfl

/-! ### `State.setHwy` -/

@[simp] theorem State.setHwy_ftm (s : State) (x : Hwy) : (s.setHwy x).ftm = s.ftm := rfl
@[simp] theorem State.setHwy_clp (s : State) (x : Hwy) : (s.setHwy x).clp = s.clp := rfl
@[simp] theorem State.setHwy_crx (s : State) (x : Hwy) : (s.setHwy x).crx = s.crx := rfl
@[simp] theorem State.setHwy_fil (s : State) (x : Hwy) : (s.setHwy x).fil = s.fil := rfl
@[simp] theorem State.setHwy_cbl (s : State) (x : Hwy) : (s.setHwy x).cbl = s.cbl := rfl
@[simp] theorem State.setHwy_hwy (s : State) (x : Hwy) : (s.setHwy x).hwy = x := rfl
@[simp] theorem State.setHwy_ptb (s : State) (x : Hwy) : (s.setHwy x).ptb = s.ptb := rfl
@[simp] theorem State.setHwy_cnd (s : State) (x : Hwy) : (s.setHwy x).cnd = s.cnd := rfl
@[simp] theorem State.setHwy_cmd (s : State) (x : Hwy) : (s.setHwy x).cmd = s.cmd := rfl
@[simp] theorem State.setHwy_pending (s : State) (x : Hwy) : (s.setHwy x).pending = s.pending := rfl
@[simp] theorem State.setHwy_setHwy (s : State) (x y : Hwy) : (s.setHwy x).setHwy y = s.setHwy y := rfl
@[simp] theorem State.setHwy_self (s : State) : s.setHwy s.hwy = s := rfl

/-! ### `State.setPtb` -/

@[simp] theorem State.setPtb_ftm (s : State) (x : Ptb) : (s.setPtb x).ftm = s.ftm := rfl
@[simp] theorem State.setPtb_clp (s : State) (x : Ptb) : (s.setPtb x).clp = s.clp := rfl
@[simp] theorem State.setPtb_crx (s : State) (x : Ptb) : (s.setPtb x).crx = s.crx := rfl
@[simp] theorem State.setPtb_fil (s : State) (x : Ptb) : (s.setPtb x).fil = s.fil := rfl
@[simp] theorem State.setPtb_cbl (s : State) (x : Ptb) : (s.setPtb x).cbl = s.cbl := rfl
@[simp] theorem State.setPtb_hwy (s : State) (x : Ptb) : (s.setPtb x).hwy = s.hwy := rfl
@[simp] theorem State.setPtb_ptb (s : State) (x : Ptb) : (s.setPtb x).ptb = x := rfl
@[simp] theorem State.setPtb_cnd (s : State) (x : Ptb) : (s.setPtb x).cnd = s.cnd := rfl
@[simp] theorem State.setPtb_cmd (s : State) (x : Ptb) : (s.setPtb x).cmd = s.cmd := rfl
@[simp] theorem State.setPtb_pending (s : State) (x : Ptb) : (s.setPtb x).pending = s.pending := rfl
@[simp] theorem State.setPtb_setPtb (s : State) (x y : Ptb) : (s.setPtb x).setPtb y = s.setPtb y := rfl
@[simp] theorem State.setPtb_self (s : State) : s.setPtb s.ptb = s := rfl

/-! ### `State.setCnd` -/

@[simp] theorem State.setCnd_ftm (s : State) (x : Cnd) : (s.setCnd x).ftm = s.ftm := rfl
@[simp] theorem State.setCnd_clp (s : State) (x : Cnd) : (s.setCnd x).clp = s.clp := rfl
@[simp] theorem State.setCnd_crx (s : State) (x : Cnd) : (s.setCnd x).crx = s.crx := rfl
@[simp] theorem State.setCnd_fil (s : State) (x : Cnd) : (s.setCnd x).fil = s.fil := rfl
@[simp] theorem State.setCnd_cbl (s : State) (x : Cnd) : (s.setCnd x).cbl = s.cbl := rfl
@[simp] theorem State.setCnd_hwy (s : State) (x : Cnd) : (s.setCnd x).hwy = s.hwy := rfl
@[simp] theorem State.setCnd_ptb (s : State) (x : Cnd) : (s.setCnd x).ptb = s.ptb := rfl
@[simp] theorem State.setCnd_cnd (s : State) (x : Cnd) : (s.setCnd x).cnd = x := rfl
@[simp] theorem State.setCnd_cmd (s : State) (x : Cnd) : (s.setCnd x).cmd = s.cmd := rfl
@[simp] theorem State.setCnd_pending (s : State) (x : Cnd) : (s.setCnd x).pending = s.pending := rfl
@[simp] theorem State.setCnd_setCnd (s : State) (x y : Cnd) : (s.setCnd x).setCnd y = s.setCnd y := rfl
@[simp] theorem State.setCnd_self (s : State) : s.setCnd s.cnd = s := rfl

/-! ### `State.setCmd` -/

@[simp] theorem State.setCmd_ftm (s : State) (x : Cmd) : (s.setCmd x).ftm = s.ftm := rfl
@[simp] theorem State.setCmd_clp (s : State) (x : Cmd) : (s.setCmd x).clp = s.clp := rfl
@[simp] theorem State.setCmd_crx (s : State) (x : Cmd) : (s.setCmd x).crx = s.crx := rfl
@[simp] theorem State.setCmd_fil (s : State) (x : Cmd) : (s.setCmd x).fil = s.fil := rfl
@[simp] theorem State.setCmd_cbl (s : State) (x : Cmd) : (s.setCmd x).cbl = s.cbl := rfl
@[simp] theorem State.setCmd_hwy (s : State) (x : Cmd) : (s.setCmd x).hwy = s.hwy := rfl
@[simp] theorem State.setCmd_ptb (s : State) (x : Cmd) : (s.setCmd x).ptb = s.ptb := rfl
@[simp] theorem State.setCmd_cnd (s : State) (x : Cmd) : (s.setCmd x).cnd = s.cnd := rfl
@[simp] theorem State.setCmd_cmd (s : State) (x : Cmd) : (s.setCmd x).cmd = x := rfl
@[simp] theorem State.setCmd_pending (s : State) (x : Cmd) : (s.setCmd x).pending = s.pending := rfl
@[simp] theorem State.setCmd_setCmd (s : State) (x y : Cmd) : (s.setCmd x).setCmd y = s.setCmd y := rfl
@[simp] theorem State.setCmd_self (s : State) : s.setCmd s.cmd = s := rfl

/-! ### Views that a block update leaves alone -/

@[simp] theorem State.path_setFtm (s : State) (x : Ftm) (h : Nat) : (s.setFtm x).path h = s.path h := rfl
@[simp] theorem State.path_setClp (s : State) (x : Clp) (h : Nat) : (s.setClp x).path h = s.path h := rfl
@[simp] theorem State.path_setCrx (s : State) (x : Crx) (h : Nat) : (s.setCrx x).path h = s.path h := rfl
@[simp] theorem State.path_setFil (s : State) (x : FilConsts) (h : Nat) : (s.setFil x).path h = s.path h := rfl
@[simp] theorem State.path_setCbl (s : State) (x : Cbl) (h : Nat) : (s.setCbl x).path h = s.path h := rfl
@[simp] theorem State.path_setHwy (s : State) (x : Hwy) (h : Nat) : (s.setHwy x).path h = s.path h := rfl
@[simp] theorem State.path_setCnd (s : State) (x : Cnd) (h : Nat) : (s.setCnd x).path h = s.path h := rfl
@[simp] theorem State.path_setCmd (s : State) (x : Cmd) (h : Nat) : (s.setCmd x).path h = s.path h := rfl

@[simp] theorem State.listed_setFtm (s : State) (x : Ftm) (h : Nat) : (s.setFtm x).listed h = s.listed h := rfl
@[simp] theorem State.listed_setClp (s : State) (x : Clp) (h : Nat) : (s.setClp x).listed h = s.listed h := rfl
@[simp] theorem State.listed_setCrx (s : State) (x : Crx) (h : Nat) : (s.setCrx x).listed h = s.listed h := rfl
@[simp] theorem State.listed_setFil (s : State) (x : FilConsts) (h : Nat) : (s.setFil x).listed h = s.listed h := rfl
@[simp] theorem State.listed_setCbl (s : State) (x : Cbl) (h : Nat) : (s.setCbl x).listed h = s.listed h := rfl
@[simp] theorem State.listed_setHwy (s : State) (x : Hwy) (h : Nat) : (s.setHwy x).listed h = s.listed h := rfl
@[simp] theorem State.listed_setCnd (s : State) (x : Cnd) (h : Nat) : (s.setCnd x).listed h = s.listed h := rfl
@[simp] theorem State.listed_setCmd (s : State) (x : Cmd) (h : Nat) : (s.setCmd x).listed h = s.listed h := rfl

@[simp] theorem State.rx_setFtm (s : State) (x : Ftm) (p : Nat) : (s.setFtm x).rx p = s.rx p := rfl
@[simp] theorem State.rx_setCrx (s : State) (x : Crx) (p : Nat) : (s.setCrx x).rx p = s.rx p := rfl
@[simp] theorem State.rx_setFil (s : State) (x : FilConsts) (p : Nat) : (s.setFil x).rx p = s.rx p := rfl
@[simp] theorem State.rx_setCbl (s : State) (x : Cbl) (p : Nat) : (s.setCbl x).rx p = s.rx p := rfl
@[simp] theorem State.rx_setHwy (s : State) (x : Hwy) (p : Nat) : (s.setHwy x).rx p = s.rx p := rfl
@[simp] theorem State.rx_setPtb (s : State) (x : Ptb) (p : Nat) : (s.setPtb x).rx p = s.rx p := rfl
@[simp] theorem State.rx_setCnd (s : State) (x : Cnd) (p : Nat) : (s.setCnd x).rx p = s.rx p := rfl
@[simp] theorem State.rx_setCmd (s : State) (x : Cmd) (p : Nat) : (s.setCmd x).rx p = s.rx p := rfl

@[simp] theorem State.tx_setFtm (s : State) (x : Ftm) (p : Nat) : (s.setFtm x).tx p = s.tx p := rfl
@[simp] theorem State.tx_setCrx (s : State) (x : Crx) (p : Nat) : (s.setCrx x).tx p = s.tx p := rfl
@[simp] theorem State.tx_setFil (s : State) (x : FilConsts) (p : Nat) : (s.setFil x).tx p = s.tx p := rfl
@[simp] theorem State.tx_setCbl (s : State) (x : Cbl) (p : Nat) : (s.setCbl x).tx p = s.tx p := rfl
@[simp] theorem State.tx_setHwy (s : State) (x : Hwy) (p : Nat) : (s.setHwy x).tx p = s.tx p := rfl
@[simp] theorem State.tx_setPtb (s : State) (x : Ptb) (p : Nat) : (s.setPtb x).tx p = s.tx p := rfl
@[simp] theorem State.tx_setCnd (s : State) (x : Cnd) (p : Nat) : (s.setCnd x).tx p = s.tx p := rfl
@[simp] theorem State.tx_setCmd (s : State) (x : Cmd) (p : Nat) : (s.setCmd x).tx p = s.tx p := rfl

@[simp] theorem State.carrier_setFtm (s : State) (x : Ftm) (c : Nat) : (s.setFtm x).carrier c = s.carrier c := rfl
@[simp] theorem State.carrier_setClp (s : State) (x : Clp) (c : Nat) : (s.setClp x).carrier c = s.carrier c := rfl
@[simp] theorem State.carrier_setFil (s : State) (x : FilConsts) (c : Nat) : (s.setFil x).carrier c = s.carrier c := rfl
@[simp] theorem State.carrier_setCbl (s : State) (x : Cbl) (c : Nat) : (s.setCbl x).carrier c = s.carrier c := rfl
@[simp] theorem State.carrier_setHwy (s : State) (x : Hwy) (c : Nat) : (s.setHwy x).carrier c = s.carrier c := rfl
@[simp] theorem State.carrier_setPtb (s : State) (x : Ptb) (c : Nat) : (s.setPtb x).carrier c = s.carrier c := rfl
@[simp] theorem State.carrier_setCnd (s : State) (x : Cnd) (c : Nat) : (s.setCnd x).carrier c = s.carrier c := rfl
@[simp] theorem State.carrier_setCmd (s : State) (x : Cmd) (c : Nat) : (s.setCmd x).carrier c = s.carrier c := rfl

@[simp] theorem State.entry_setFtm (s : State) (x : Ftm) (n : Nat) : (s.setFtm x).entry n = s.entry n := rfl
@[simp] theorem State.entry_setClp (s : State) (x : Clp) (n : Nat) : (s.setClp x).entry n = s.entry n := rfl
@[simp] theorem State.entry_setCrx (s : State) (x : Crx) (n : Nat) : (s.setCrx x).entry n = s.entry n := rfl
@[simp] theorem State.entry_setFil (s : State) (x : FilConsts) (n : Nat) : (s.setFil x).entry n = s.entry n := rfl
@[simp] theorem State.entry_setCbl (s : State) (x : Cbl) (n : Nat) : (s.setCbl x).entry n = s.entry n := rfl
@[simp] theorem State.entry_setPtb (s : State) (x : Ptb) (n : Nat) : (s.setPtb x).entry n = s.entry n := rfl
@[simp] theorem State.entry_setCnd (s : State) (x : Cnd) (n : Nat) : (s.setCnd x).entry n = s.entry n := rfl
@[simp] theorem State.entry_setCmd (s : State) (x : Cmd) (n : Nat) : (s.setCmd x).entry n = s.entry n := rfl

@[simp] theorem State.hasRoom_setFtm (s : State) (x : Ftm) : (s.setFtm x).hasRoom = s.hasRoom  := rfl
@[simp] theorem State.hasRoom_setClp (s : State) (x : Clp) : (s.setClp x).hasRoom = s.hasRoom  := rfl
@[simp] theorem State.hasRoom_setCrx (s : State) (x : Crx) : (s.setCrx x).hasRoom = s.hasRoom  := rfl
@[simp] theorem State.hasRoom_setFil (s : State) (x : FilConsts) : (s.setFil x).hasRoom = s.hasRoom  := rfl
@[simp] theorem State.hasRoom_setCbl (s : State) (x : Cbl) : (s.setCbl x).hasRoom = s.hasRoom  := rfl
@[simp] theorem State.hasRoom_setPtb (s : State) (x : Ptb) : (s.setPtb x).hasRoom = s.hasRoom  := rfl
@[simp] theorem State.hasRoom_setCnd (s : State) (x : Cnd) : (s.setCnd x).hasRoom = s.hasRoom  := rfl
@[simp] theorem State.hasRoom_setCmd (s : State) (x : Cmd) : (s.setCmd x).hasRoom = s.hasRoom  := rfl

@[simp] theorem State.self_setFtm (s : State) (x : Ftm) : (s.setFtm x).self = s.self  := rfl
@[simp] theorem State.self_setClp (s : State) (x : Clp) : (s.setClp x).self = s.self  := rfl
@[simp] theorem State.self_setCrx (s : State) (x : Crx) : (s.setCrx x).self = s.self  := rfl
@[simp] theorem State.self_setFil (s : State) (x : FilConsts) : (s.setFil x).self = s.self  := rfl
@[simp] theorem State.self_setCbl (s : State) (x : Cbl) : (s.setCbl x).self = s.self  := rfl
@[simp] theorem State.self_setPtb (s : State) (x : Ptb) : (s.setPtb x).self = s.self  := rfl
@[simp] theorem State.self_setCnd (s : State) (x : Cnd) : (s.setCnd x).self = s.self  := rfl
@[simp] theorem State.self_setCmd (s : State) (x : Cmd) : (s.setCmd x).self = s.self  := rfl

end Sys2Proof.Machine
end

