-- ==== Sys2Proof/Laws/Ops.lean ====
section
/-! SUPPORT. What each shared operation does, once: records, the completion list, the send queue, the cell map, the
queue of condition records, places in the highway frame, presets, and the marks of a frame. -/

namespace Sys2Proof.Machine

/-- A saturating count is a minimum. -/
theorem satInc_eq_min (top n : Nat) : satInc top n = min top (n + 1) := by unfold satInc; split <;> omega

/-! ### Records -/

@[simp] theorem State.path_setPath_self (s : State) (h : Nat) (p : PathRec) : (s.setPath h p).path h = some p :=
  Sparse.find_insert_self _ _ _

theorem State.path_setPath_ne (s : State) {h g : Nat} (p : PathRec) (hg : g ≠ h) :
    (s.setPath h p).path g = s.path g := Sparse.find_insert_ne _ _ hg

/-- A record change leaves every block but PTB alone, and in PTB all but the table of records. -/
theorem State.setPath_eq (s : State) (h : Nat) (p : PathRec) :
    s.setPath h p = s.setPtb { s.ptb with paths := Sparse.insert s.ptb.paths h p } := rfl

@[simp] theorem State.setPath_ftm (s : State) (h : Nat) (p : PathRec) : (s.setPath h p).ftm = s.ftm := rfl
@[simp] theorem State.setPath_clp (s : State) (h : Nat) (p : PathRec) : (s.setPath h p).clp = s.clp := rfl
@[simp] theorem State.setPath_crx (s : State) (h : Nat) (p : PathRec) : (s.setPath h p).crx = s.crx := rfl
@[simp] theorem State.setPath_fil (s : State) (h : Nat) (p : PathRec) : (s.setPath h p).fil = s.fil := rfl
@[simp] theorem State.setPath_cbl (s : State) (h : Nat) (p : PathRec) : (s.setPath h p).cbl = s.cbl := rfl
@[simp] theorem State.setPath_hwy (s : State) (h : Nat) (p : PathRec) : (s.setPath h p).hwy = s.hwy := rfl
@[simp] theorem State.setPath_cnd (s : State) (h : Nat) (p : PathRec) : (s.setPath h p).cnd = s.cnd := rfl
@[simp] theorem State.setPath_cmd (s : State) (h : Nat) (p : PathRec) : (s.setPath h p).cmd = s.cmd := rfl
@[simp] theorem State.setPath_pending (s : State) (h : Nat) (p : PathRec) : (s.setPath h p).pending = s.pending := rfl
@[simp] theorem State.setPath_feeds (s : State) (h : Nat) (p : PathRec) : (s.setPath h p).ptb.feeds = s.ptb.feeds := rfl
@[simp] theorem State.setPath_completions (s : State) (h : Nat) (p : PathRec) :
    (s.setPath h p).ptb.completions = s.ptb.completions := rfl
@[simp] theorem State.setPath_rxBind (s : State) (h : Nat) (p : PathRec) :
    (s.setPath h p).ptb.rxBind = s.ptb.rxBind := rfl
@[simp] theorem State.setPath_txBind (s : State) (h : Nat) (p : PathRec) :
    (s.setPath h p).ptb.txBind = s.ptb.txBind := rfl

/-- What `modPath` can do: nothing where the handle is not in use, and one record's change where it is. -/
theorem State.modPath_cases (s : State) (h : Nat) (f : PathRec → PathRec) :
    (s.path h = none ∧ s.modPath h f = s) ∨ ∃ p, s.path h = some p ∧ s.modPath h f = s.setPath h (f p) := by
  unfold State.modPath
  cases hp : s.path h with
  | none => exact .inl ⟨rfl, rfl⟩
  | some p => exact .inr ⟨p, rfl, rfl⟩

theorem State.modPath_of_path {s : State} {h : Nat} {p : PathRec} (f : PathRec → PathRec) (hp : s.path h = some p) :
    s.modPath h f = s.setPath h (f p) := by simp [State.modPath, hp]

theorem State.path_modPath_self (s : State) (h : Nat) (f : PathRec → PathRec) :
    (s.modPath h f).path h = (s.path h).map f := by
  rcases s.modPath_cases h f with ⟨hp, he⟩ | ⟨p, hp, he⟩ <;> simp [he, hp]

theorem State.path_modPath_ne (s : State) {h g : Nat} (f : PathRec → PathRec) (hg : g ≠ h) :
    (s.modPath h f).path g = s.path g := by
  rcases s.modPath_cases h f with ⟨hp, he⟩ | ⟨p, hp, he⟩ <;> rw [he]
  exact s.path_setPath_ne _ hg

/-- `modPath` touches only the table of records. -/
theorem State.modPath_ptb (s : State) (h : Nat) (f : PathRec → PathRec) :
    ∃ m, s.modPath h f = s.setPtb { s.ptb with paths := m } := by
  rcases s.modPath_cases h f with ⟨hp, he⟩ | ⟨p, hp, he⟩
  · exact ⟨s.ptb.paths, by rw [he]; rfl⟩
  · exact ⟨_, he.trans (s.setPath_eq h (f p))⟩

/-- A change of every record, read at one handle. -/
theorem State.path_mapPaths (s : State) (f : Nat → PathRec → PathRec) (h : Nat) :
    (s.mapPaths f).path h = (s.path h).map (f h) := Sparse.find_mapVals f s.ptb.paths h

/-- A request (R42) takes a record found in the state named to the new one, and leaves any other record as it is. -/
theorem State.path_request_self (s : State) (h : Nat) (a b : PState) :
    (s.request h a b).path h = (s.path h).map (fun p => if p.state = a then { p with state := b } else p) :=
  s.path_modPath_self h _

theorem State.path_request_ne (s : State) {h g : Nat} (a b : PState) (hg : g ≠ h) :
    (s.request h a b).path g = s.path g := s.path_modPath_ne _ hg

/-! ### The completion list (R56) -/

/-- What a post can do: nothing for a handle not in use; else the record's completion fields and its list entry. -/
theorem State.post_cases (s : State) (h : Nat) (c : Completion) :
    (s.path h = none ∧ s.post h c = s) ∨
    ∃ p, s.path h = some p ∧ (s.post h c).path h = some (p.posted (s.listed h) c) ∧
      (∀ g, g ≠ h → (s.post h c).path g = s.path g) ∧
      (s.post h c).ptb.completions =
        (if s.listed h then replaceCompletion h c s.ptb.completions else s.ptb.completions ++ [(h, c)]) ∧
      ∃ x, s.post h c = s.setPtb x ∧ x.feeds = s.ptb.feeds ∧ x.rxBind = s.ptb.rxBind ∧ x.txBind = s.ptb.txBind := by
  unfold State.post
  cases hp : s.path h with
  | none => exact .inl ⟨rfl, rfl⟩
  | some p =>
    refine .inr ⟨p, rfl, Sparse.find_insert_self _ _ _, fun g hg => Sparse.find_insert_ne _ _ hg, rfl, _, rfl, rfl, rfl, rfl⟩

/-- A post leaves everything of a record but its completion fields. -/
theorem PathRec.posted_fields (p : PathRec) (b : Bool) (c : Completion) :
    (p.posted b c).tag = p.tag ∧ (p.posted b c).role = p.role ∧ (p.posted b c).k = p.k ∧
    (p.posted b c).state = p.state ∧ (p.posted b c).hw = p.hw ∧ (p.posted b c).sk = p.sk ∧
    (p.posted b c).fil = p.fil ∧ (p.posted b c).lastCompletion = some c := by
  unfold PathRec.posted; split <;> simp

/-! ### The send queue (R101, R107) -/

/-- Creating a message: it joins the tail where the station may create one and the queue has room. -/
theorem State.send_cases (s : State) (m : Msg) :
    (s.hasRoom = false ∧ s.send m = s) ∨
    (s.hasRoom = true ∧ s.hwy.sendQ.length < 8 ∧
      s.send m = s.setHwy { s.hwy with sendQ := s.hwy.sendQ ++ [{ msg := m, age := 0 }] }) := by
  unfold State.send
  cases hr : s.hasRoom with
  | false => exact .inl ⟨rfl, rfl⟩
  | true =>
    refine .inr ⟨rfl, ?_, rfl⟩
    simp [State.hasRoom] at hr
    exact hr.2

/-- The send queue never holds more than eight messages (R107). -/
theorem State.send_length (s : State) (m : Msg) (h : s.hwy.sendQ.length ≤ 8) : (s.send m).hwy.sendQ.length ≤ 8 := by
  rcases s.send_cases m with ⟨_, he⟩ | ⟨_, hl, he⟩ <;> rw [he]
  · exact h
  · simp; omega

theorem State.unsend_length (s : State) (f : Msg → Bool) (h : s.hwy.sendQ.length ≤ 8) :
    (s.unsend f).hwy.sendQ.length ≤ 8 := Nat.le_trans (List.length_filter_le _ _) h

/-! ### The cell map (R114) -/

/-- A change of a run leaves every entry outside it as it was. -/
theorem get_mapRun_outside (m : Sparse CellEntry) (first : Nat) (f : CellEntry → CellEntry) (n x : Nat)
    (hx : ¬ (first ≤ x ∧ x < first + n)) :
    Sparse.get .free (mapRun m first f n) x = Sparse.get .free m x := by
  induction n with
  | zero => rfl
  | succ n ih =>
    simp only [mapRun]
    rw [Sparse.get_put_ne _ _ _ (by omega), ih (by omega)]

theorem rising_mapRun (m : Sparse CellEntry) (first : Nat) (f : CellEntry → CellEntry) (n : Nat)
    (h : Sparse.rising m = true) : Sparse.rising (mapRun m first f n) = true := by
  induction n with
  | zero => exact h
  | succ n ih => simp only [mapRun]; exact Sparse.rising_put _ _ _ _ ih

theorem wf_mapRun (m : Sparse CellEntry) (first : Nat) (f : CellEntry → CellEntry) (n : Nat)
    (h : Sparse.wf CellEntry.free m = true) : Sparse.wf CellEntry.free (mapRun m first f n) = true := by
  induction n with
  | zero => exact h
  | succ n ih => simp only [mapRun]; exact Sparse.wf_put _ _ _ _ ih

/-- A change of a run changes each entry of it by itself. -/
theorem get_mapRun_inside (m : Sparse CellEntry) (first : Nat) (f : CellEntry → CellEntry) (n x : Nat)
    (hm : Sparse.rising m = true) (hx : first ≤ x ∧ x < first + n) :
    Sparse.get .free (mapRun m first f n) x = f (Sparse.get .free m x) := by
  induction n with
  | zero => omega
  | succ n ih =>
    simp only [mapRun]
    by_cases he : x = first + n
    · subst he
      rw [Sparse.get_put_self _ _ _ _ (rising_mapRun m first f n hm), get_mapRun_outside m first f n _ (by omega)]
    · rw [Sparse.get_put_ne _ _ _ he, ih (by omega)]

theorem State.entry_onRun_outside (s : State) (first k : Nat) (f : CellEntry → CellEntry) (x : Nat)
    (hx : ¬ (first ≤ x ∧ x < first + k)) : (s.onRun first k f).entry x = s.entry x :=
  get_mapRun_outside _ _ _ _ _ hx

theorem State.entry_onRun_inside (s : State) (first k : Nat) (f : CellEntry → CellEntry) (x : Nat)
    (hm : Sparse.rising s.hwy.cells = true) (hx : first ≤ x ∧ x < first + k) :
    (s.onRun first k f).entry x = f (s.entry x) := get_mapRun_inside _ _ _ _ _ hm hx

/-! ### The condition queue (R174) -/

theorem markTail_length (l : List CondRec) : (markTail l).length = l.length := by
  induction l with
  | nil => rfl
  | cons r rs ih =>
    cases rs with
    | nil => rfl
    | cons r' rs => simpa [markTail] using ih

/-- The condition queue never holds more than 64 records (R174). -/
theorem Cnd.offer_length (c : Cnd) (r : CondRec) (h : c.queue.length ≤ 64) : (c.offer r).queue.length ≤ 64 := by
  unfold Cnd.offer
  split
  · exact h
  · split
    · simp; omega
    · simpa [markTail_length] using h

/-- Offering a record changes the queue alone. -/
theorem Cnd.offer_rest (c : Cnd) (r : CondRec) :
    (c.offer r).insts = c.insts ∧ (c.offer r).settings = c.settings ∧ (c.offer r).quiet = c.quiet := by
  unfold Cnd.offer; split
  · exact ⟨rfl, rfl, rfl⟩
  · split <;> exact ⟨rfl, rfl, rfl⟩

/-- An event changes CND alone. -/
theorem State.event_eq (s : State) (k : CondKind) (o : CondObj) : ∃ c, s.event k o = s.setCnd c := by
  unfold State.event; split
  · exact ⟨s.cnd, rfl⟩
  · exact ⟨_, rfl⟩

/-! ### Places in the highway frame -/

theorem sharesBefore_mono (seg : Nat) {a b : Nat} (h : a ≤ b) : sharesBefore seg a ≤ sharesBefore seg b := by
  induction h with
  | refl => exact Nat.le_refl _
  | step _ ih => exact Nat.le_trans ih (Nat.le_add_right _ _)

/-- A later slot of a segment starts later (R15). -/
theorem slotStart_lt (len seg : Nat) {a b : Nat} (h : a < b) : slotStart len seg a < slotStart len seg b :=
  Nat.add_lt_add_of_lt_of_le h
    (Nat.div_le_div_right (Nat.mul_le_mul_left _ (sharesBefore_mono seg (Nat.le_of_lt h))))

/-- Every slot starts within its segment, where the segment has room for its slots (R15). -/
theorem slotStart_lt_len (len seg slot : Nat) (hs : slot < segmentSlots) (hl : segmentSlots ≤ len) :
    slotStart len seg slot < len := by
  have h : (len - segmentSlots) * sharesBefore seg slot / sharesBefore seg segmentSlots ≤ len - segmentSlots :=
    Nat.div_le_of_le_mul (by
      rw [Nat.mul_comm]
      exact Nat.mul_le_mul_right _ (sharesBefore_mono seg (Nat.le_of_lt hs)))
  unfold slotStart
  omega

/-- The cells of a frame stand in their order: a higher cell starts later (R15). -/
theorem placeOffset_cell_lt (period : Nat) {x y : Nat} (hp : segmentSlots ≤ period / 16) (h : x < y) :
    placeOffset period (.cell x) < placeOffset period (.cell y) := by
  simp only [placeOffset]
  rcases Nat.eq_or_lt_of_le (Nat.div_le_div_right (c := 64) (Nat.le_of_lt h)) with e | e
  · rw [e]
    exact Nat.add_lt_add_left (slotStart_lt _ _ (by omega)) _
  · have hx : slotStart (period / 16) (x / 64) (x % 64 + 1) < period / 16 :=
      slotStart_lt_len _ _ _ (by unfold segmentSlots; omega) hp
    have hd : x / 64 * period / 16 + period / 16 ≤ y / 64 * period / 16 := by
      have : (x / 64 + 1) * period ≤ y / 64 * period := Nat.mul_le_mul_right _ e
      rw [Nat.add_mul, Nat.one_mul] at this
      omega
    omega

/-! ### Presets and the marks of a frame -/

/-- A preset changes the store, the bytes still to drop and the window's validity, and nothing else (R68). -/
theorem Fil.preset_eq (c : FilConsts) (k l : Nat) (f : Fil) :
    f.preset c k l = { f with store := (f.preset c k l).store, dropNext := (f.preset c k l).dropNext,
                              wValid := (f.preset c k l).wValid } := by
  unfold Fil.preset
  dsimp only
  split
  · rfl
  · split <;> rfl

/-- A preset keeps the store within its capacity (R61, R68). -/
theorem Fil.preset_length (c : FilConsts) (k l : Nat) (f : Fil) (h : f.store.length ≤ capacity k) :
    (f.preset c k l).store.length ≤ capacity k := by
  unfold Fil.preset
  dsimp only
  split
  · rw [List.length_drop]; omega
  · split
    · rw [List.length_append, List.length_replicate]; omega
    · exact h

/-- What marking a path whose source is not delivering can do: nothing, or the two marks (R35, R66). -/
theorem State.markPath_cases (s : State) (h : Nat) :
    s.markPath h = s ∨ ∃ p, s.path h = some p ∧ s.notDelivering p = true ∧
      s.markPath h = s.setPath h { p with srcBadSeen := true, fil := p.fil.map (fun f => { f with defectSeen := true }) } := by
  unfold State.markPath
  split
  · exact .inl rfl
  · rename_i p hp
    split
    · exact .inr ⟨p, hp, ‹_›, rfl⟩
    · exact .inl rfl

end Sys2Proof.Machine
end

