-- ==== Sys2Proof/Tests/Slice0.lean ====
section
/-! SUPPORT. The model's own tests: each check of WellFormed refuses an ill-formed command, single steps on small states
with the values the rules give, and for every statement with hypotheses a witness that meets them, clause by clause. -/

-- The tests are elaborated one after another: in the package as one text, many at once need too many threads.
set_option Elab.async false

namespace Sys2Proof.Tests
open Sys2Proof.Machine

/-! ### Small states -/

/-- The state after a command, where it answers one. -/
def after (c : Instr) (s : State) : State :=
  match exec c s with
  | .next t => t
  | _ => s

/-- Station 3, started, in TRACKING, JOINED. -/
def base : State :=
  { State.reset with
    ftm := { State.reset.ftm with timer := .tracking, lastStart := 1000000000 },
    hwy := { State.reset.hwy with station := .joined, number := some 3, warm := 2, doubt := false },
    cmd := { State.reset.cmd with started := true } }

/-- An 8-character label. -/
def name : Label := [0x45, 0x41, 0x53, 0x54, 0x30, 0x34, 0x31, 0x37]

/-- From client port 0 to berth 0 of carrier 1. -/
def addLocal : AddP :=
  { tag := 40, role := 0, size := 1, source := ⟨1, 0, 0⟩, sink := ⟨2, 1, 0⟩, remote := 127, hasLabel := 0,
    label := zeroLabel, squelch := 1 }

/-- From the group at berth 16 of carrier 0 to station 9. -/
def addSource : AddP :=
  { tag := 41, role := 1, size := 4, source := ⟨2, 0, 16⟩, sink := ⟨0, 0, 0⟩, remote := 9, hasLabel := 0,
    label := zeroLabel, squelch := 0x40 }

/-- From station 9 to berth 8 of carrier 2. -/
def addSink : AddP :=
  { tag := 42, role := 2, size := 4, source := ⟨0, 0, 0⟩, sink := ⟨2, 2, 8⟩, remote := 9, hasLabel := 0,
    label := zeroLabel, squelch := 2 }

def localRec : PathRec := { addedRecord addLocal with begun := true }
def sourceRec : PathRec := { addedRecord addSource with begun := true }
def sinkRec : PathRec := { addedRecord addSink with begun := true }

/-- The station with one record, of handle 0. -/
def withRec (p : PathRec) : State := base.setPath 0 p

/-- The source carries on cells 64 to 67. -/
def carrying : PathRec := { sourceRec with state := .carrying, liveF := true, hw := { sourceRec.hw with cells := some 64 } }

/-- The entries of cells 64 to 67 are the station's own. -/
def ownCells : State := (withRec carrying).onRun 64 4 (fun _ => .ownHeld 3 41)

/-- The sink receives cells 64 to 67. -/
def receiving : PathRec := { sinkRec with state := .receiving, liveF := true, sk := { sinkRec.sk with cells := some 64 } }

/-- The source claims cells 64 to 67, and its monitor runs with one multiframe left. -/
def claiming : State :=
  let p : PathRec := { sourceRec with state := .claiming, hw := { sourceRec.hw with cells := some 64 } }
  let s := (withRec p).onRun 64 4 (fun _ => .ownReserved 3 41)
  s.setHwy { s.hwy with mons := [.running { handle := 0, tag := 41, addressee := 9, first := 64, k := 4, move := false } 1,
                                 .idle] }

/-- The fields of a message about cells 64 to 67. -/
def msg (sender addressee tag : Nat) : MsgBody :=
  { sender := sender, addressee := addressee, tag := tag, first := 64, size := 4, move := false }

/-! ### Well-formedness: one ill-formed command for each check -/

theorem test_wf_port : (Instr.clientByteReceived 32 0 true 0).wf = false ∧ (Instr.clientByteReceived 31 0 true 0).wf = true := by
  decide
theorem test_wf_carrier : (Instr.carrierByteReceived 4 0 true).wf = false ∧ (Instr.carrierByteReceived 3 0 true).wf = true := by
  decide
theorem test_wf_frame_pattern : (Instr.carrierFrameReceived 0 { pattern := [], index := 0, berths := [] }).wf = false := by decide
theorem test_wf_frame_berth : (Instr.carrierFrameReceived 0
    { pattern := carrierPattern, index := 0, berths := [(432, ⟨0, 0, 0, 0, List.replicate 91 0⟩)] }).wf = false := by decide
theorem test_wf_frame_payload : (Instr.carrierFrameReceived 0
    { pattern := carrierPattern, index := 0, berths := [(0, ⟨0, 0, 0, 0, []⟩)] }).wf = false := by decide
theorem test_wf_frame_order : (Instr.carrierFrameReceived 0
    { pattern := carrierPattern, index := 0, berths := [(1, ⟨0, 0, 0, 0, List.replicate 91 0⟩),
      (1, ⟨0, 0, 0, 0, List.replicate 91 0⟩)] }).wf = false := by decide
theorem test_wf_group : (Instr.groupStart 4 0).wf = false ∧ (Instr.groupStart 0 432).wf = false := by decide
theorem test_wf_cell : (Instr.highwayCell 1024 0 0 (List.replicate 91 0)).wf = false ∧
    (Instr.highwayCell 0 0 0 []).wf = false ∧ (Instr.silentCellExpiry 1024).wf = false := by decide
theorem test_wf_message_same_station : (Instr.claim (msg 3 3 41)).wf = false := by decide
theorem test_wf_message_tag : (Instr.accept (msg 3 9 0)).wf = false := by decide
theorem test_wf_message_station : (Instr.refuse (msg 16 9 41) .noPath).wf = false := by decide
theorem test_wf_message_first : (Instr.claim { msg 3 9 41 with first := 66 }).wf = false := by decide
theorem test_wf_message_size : (Instr.claim { msg 3 9 41 with size := 2 }).wf = false := by decide
theorem test_wf_message_move : (Instr.release { msg 3 9 41 with move := true } .moved).wf = false := by decide
theorem test_wf_host_fields : (Instr.deletePath 16384).wf = false ∧ (Instr.movePath 0 128 0 0).wf = false ∧
    (Instr.nudge 0 0 128).wf = false ∧ (Instr.squelch 0 128).wf = false ∧ (Instr.readCells 0 128).wf = false ∧
    (Instr.addPath { addLocal with label := [] }).wf = false ∧
    (Instr.start { station := 128, sizing := 0, h := 0, n := 0, i := 0, m := 0, timeout := 0, expiry := 0, guard := 0,
                   holdoff := 0 }).wf = false ∧
    (Instr.labelScan { carrier := 0, size := 1, first := 0, last := 0, step := 1, mode := 0, pattern := [],
                       skip := 0 }).wf = false ∧
    (Instr.setReport { kind := 128, type := 0, raiseM := 0, raiseE := 0, clearM := 0, clearE := 0, repeatM := 0,
                       repeatE := 0 }).wf = false := by decide
theorem test_wf_bytes : (Instr.parameterByte 0x80).wf = false ∧ (Instr.unknownCommand 0x92).wf = false ∧
    (Instr.unknownCommand 0x93).wf = true ∧ (Instr.unknownCommand 0x7F).wf = false := by decide

/-! ### Words (R109, R113, R190, R191) -/

/-- A CLAIM of station 3 to station 9, tag 41, cells 64 to 67: its fields written out bit by bit as R190 lays them out, and
a check that passes. -/
theorem test_message_word :
    (encodeMsg (.claim (msg 3 9 41))).extractLsb' 8 43 =
      0b100_0011_1001_0000000000101001_0001000000_01_0_000#43 ∧
    decodeMsg (encodeMsg (.claim (msg 3 9 41))) = some (.claim (msg 3 9 41)) ∧
    decodeMsg (encodeMsg (.claim (msg 3 9 41)) ^^^ 1) = none := by decide +kernel

/-- The CRC-8 with generator x^8 + x^2 + x + 1: the byte 0x01 gives 0x07, by hand. -/
theorem test_crc : crc8 (0x01#8) = 0x07#8 ∧ crc8 (0x80#8) = 0x89#8 := by decide

theorem test_header_word :
    (encodeHeader { station := 3, tag := 41, index := 2, code := .short, label := 0x45 }).extractLsb' 8 34 =
      0b0011_0000000000101001_0010_010_1000101#34 := by decide +kernel

/-- MOVE PATH of handle 300, form 0, carrier 2, berth 400: the bytes by R191's layout. -/
theorem test_command_bytes :
    encodeCommand (.movePath 300 0 2 400) = [0x85, 2, 44, 0, 2, 3, 16] ∧
    parseCommand 0x85 [2, 44, 0, 2, 3, 16] = some (.movePath 300 0 2 400) := by decide

/-- A group of size 4 in EXTRA: 95 bytes a berth, the code three times, the label in the first berth alone, 91 data bytes
and then 90 in each berth with one byte of 0x00 (R13). -/
theorem test_group_bytes :
    (groupBytes 4 .extra 0x45 (List.replicate 361 0x11)).length = 380 ∧
    (groupBytes 4 .extra 0x45 (List.replicate 361 0x11)).take 5 = [0xC3, 0xC3, 0xC3, 0x45, 0x11] ∧
    ((groupBytes 4 .extra 0x45 (List.replicate 361 0x11)).drop 94).take 6 = [0x11, 0x3C, 0x3C, 0x3C, 0x00, 0x11] ∧
    (groupBytes 4 .extra 0x45 (List.replicate 361 0x11)).getLast? = some 0x00 := by decide +kernel

/-! ### Single steps -/

/-- ADD, ENABLE and DISABLE of a LOCAL path, by the bytes of their results. -/
theorem test_add_local : (after (.addPath addLocal) base).cmd.outFifo = [0, 0, 0] ∧
    ((after (.addPath addLocal) base).path 0).map (fun p => (p.tag, p.state, p.fil.map (fun f => f.store.length))) =
      some (40, .defined, some 32) := by decide +kernel
theorem test_add_twice : (after (.addPath addLocal) (after (.addPath addLocal) base)).cmd.outFifo = [3, 4] := by
  decide +kernel
theorem test_enable_local :
    ((after (.enablePath 0) (withRec localRec)).path 0).map (fun p => (p.state, p.enablePending)) =
      some (.defined, true) := by decide +kernel
theorem test_disable_carrying :
    (after (.disablePath 0) ownCells).hwy.sendQ = [freshMsg (.release (msg 3 9 41) .disabled)] ∧
    (after (.disablePath 0) ownCells).entry 64 = .free ∧
    ((after (.disablePath 0) ownCells).path 0).map (·.state) = some .defined := by decide +kernel
theorem test_delete_unbinds :
    (after (.deletePath 0) (after (.addPath addLocal) base)).owner 1 0 = none ∧
    (after (.deletePath 0) (after (.addPath addLocal) base)).rxPath 0 = none := by decide +kernel
theorem test_handle_checks : (after (.deletePath 5) base).cmd.outFifo = [1] ∧
    (after (.enablePath 0) State.reset).cmd.outFifo = [4] ∧ (after (.recentre 0) (withRec sinkRec)).cmd.outFifo = [9] := by
  decide +kernel
theorem test_start_clamps :
    (after (.start { station := 3, sizing := 1, h := 20, n := 0, i := 17, m := 0, timeout := 0, expiry := 1, guard := 99,
                     holdoff := 0 }) State.reset).fil = { h := 15, n := 1, i := 16, m := 1 } := by decide +kernel
/-- The claim that a source queues at a boundary takes the lowest free aligned run (R125). -/
theorem test_boundary_claims :
    (after .frameStart { withRec { sourceRec with state := .waiting } with
        ftm := { base.ftm with frame := 15 } }).hwy.sendQ =
      [freshMsg (.claim { msg 3 9 41 with first := 0 })] := by decide +kernel
/-- The first collision of station 3: backoff (3 + 1) * 1 (R135). -/
theorem test_collision :
    let s := ownCells.setHwy { ownCells.hwy with
      drives := [{ handle := 0, tag := 41, k := 4, first := 64, retired := false, content := none, label := 0 }] }
    ((after (.highwayCell 65 0 0 []) s).path 0).map (fun p => (p.state, p.hw.attempt, p.hw.backoff)) =
      some (.collided, 1, some 4) := by decide +kernel
/-- A store of one byte read, and of none: the second read gives 0x00 and slip pending (R69). -/
theorem test_reads :
    let s := withRec { localRec with fil := some { Fil.create 1 with store := [0x5A], outStage := [] } }
    ((after (.storeRead 0) (after (.storeRead 0) s)).path 0).bind (fun p => p.fil.map (fun f => (f.outStage, f.slipPending)))
      = some ([0x5A, 0x00], true) := by decide +kernel
/-- A store above its centre by more than H takes an EXTRA (R72). -/
theorem test_decision_extra :
    let s := withRec { sourceRec with fil := some { Fil.create 4 with store := List.replicate 67 1 } }
    ((after (.decisionPoint 0) s).path 0).bind (fun p => p.fil.map (fun f => (f.lastDec, f.spacing))) =
      some (.extra, 0) := by decide +kernel
/-- S = 3 at k = 1: 3 * 10000 / 720 = 41.67, rounded to 42 (R76). -/
theorem test_offset : roundAway (3 * 10000) 720 = 42 ∧ roundAway (-3 * 10000) 720 = -42 ∧ roundAway 360 720 = 1 ∧
    roundAway (-360) 720 = -1 ∧ roundAway 359 720 = 0 := by decide
/-- The default soaks: 4, 20 and 40 multiframes (R176). -/
theorem test_default_soaks : soakLength 0 1 = 4 ∧ soakLength 3 2 = 20 ∧ soakLength 3 3 = 40 := by decide
/-- The relation to a pattern with a wild position (R165). -/
theorem test_relation : relation [0x45, 0x7F, 0x53] [0x45, 0x01, 0x53] = .equal ∧
    relation [0x45, 0x41] [0x45, 0x40] = .less ∧ relation [0x45, 0x41] [0x46, 0x00] = .greater := by decide
/-- The third miss enters HOLDOVER and mutes the station (R4, R102). -/
theorem test_third_miss :
    let s := after .holdoverEntry (base.setFtm { base.ftm with miss := 2 })
    s.ftm.timer = .holdover ∧ s.hwy.station = .mute ∧ s.ftm.anchor = some 1125000000 := by decide +kernel
/-- A capture that is owed outlives a maintenance-form word and the entry into ALIGNED by one, and is made at the first
normal-form word, be it the one found in HUNT (R23). -/
theorem test_capture_owed :
    let r : RxSide := { RxSide.init with captureDue := true }
    (let c : RxSide := { r with align := .confirm, confirm := 3, pos := some 1 }
     ((c.word (some true)).1.align, (c.word (some true)).1.captureDue, (c.word (some true)).2) = (.aligned, true, true)) ∧
    (let h : RxSide := { r with held := some wordFirst }
     ((h.byte 1 wordNormal).1.align, (h.byte 1 wordNormal).1.captureDue, (h.byte 1 wordNormal).2.1) =
       (.confirm, false, true)) := by decide

/-- A preset between START and the path's first decision point uses the default H of 2; from that decision point on it
uses START's (R63). -/
theorem test_preset_constants :
    let s := (after (.addPath addLocal) base).setFil { h := 15, n := 1, i := 1, m := 5 }
    (s.path 0).map (fun p => (s.filFor p).h) = some 2 ∧
    (let u := after (.decisionPoint 0) (after .frameStart s)
     (u.path 0).map (fun p => (u.filFor p).h) = some 15) := by decide +kernel

/-- A kind and an object that are no pair of R169 have no instance. -/
theorem test_no_such_instance : base.inst .carrierLos .station = none ∧ (base.inst .refLost .station).isSome = true := by
  decide

/-- SQUELCH set between a frame start and the decision point acts at the next frame start: the client side of a LOCAL
path still takes the content of this frame (R89, R94). -/
theorem test_squelch_after_frame_start :
    let p : PathRec := { addedRecord { addLocal with sink := ⟨1, 5, 0⟩ } with
      begun := true, liveF := true, state := .carrying, sq := { localRec.sq with on := true, forced := true } }
    let s := base.setTx 5 { TxSide.init with data := true, handed := [] }
    let q : PathRec := { p with carry := [⟨⟨.normal, List.replicate 90 0x11⟩, [.client 5]⟩] }
    (((s.setPath 0 q).clientTake 5 0).tx 5).handed = List.replicate 90 0x11 ∧
    (((s.setPath 0 { q with squelchF := true }).clientTake 5 0).tx 5).handed = [] := by decide +kernel

theorem test_unknown_command : (after (.unknownCommand 0xFF) base).cmd.outFifo = [1] := by decide +kernel
theorem test_read_empty : (after .dataRead base).cmd.cpData = 0xFF := by decide +kernel
theorem test_sense_empty : (after .sense base).cmd.outFifo = [1] := by decide +kernel
/-- READ CELLS of one own held entry and one free entry (R191). -/
theorem test_read_cells : (after (.readCells 67 2) (ownCells.onRun 67 1 (fun _ => .ownHeld 3 41))).cmd.outFifo ++
    ((after (.readCells 67 2) ownCells).cmd.staged.getD []) =
      [0, 2, 2, 3, 0, 41, 1, 0xFF, 0, 0, 0, 0xFF, 0xFF, 0xFF, 0xFF, 0xFF, 0, 0] := by decide +kernel

/-! ### Witnesses: what each statement supposes is met -/

theorem base_ready : base.ready := ⟨by decide, rfl⟩
theorem withRec_ready (p : PathRec) : (withRec p).ready := base_ready
theorem base_tables : base.TablesOk := by unfold State.TablesOk; decide
theorem reset_tables : State.reset.TablesOk := by unfold State.TablesOk; decide
theorem ownCells_tables : ownCells.TablesOk := by unfold State.TablesOk; decide +kernel
theorem claiming_tables : claiming.TablesOk := by unfold State.TablesOk; decide +kernel

/-- A queue with a command, an empty queue with no byte, and one with a byte. -/
theorem witness_StepRunsFrontCommand :
    ({ base with pending := [.sense] } : State).pending = [.sense] ∧ base.pending = [] ∧ base.cmd.inFifo = [] ∧
    (after (.dataWrite 0x8C) base).pending = [] ∧ (after (.dataWrite 0x8C) base).cmd.inFifo = [0x8C] := by decide

theorem witness_WellFormedCommandsAnswer : (Instr.clientLosOnset 31).wf = true ∧ (Instr.sense).wf = true ∧
    (Instr.groupStart 3 431).wf = true := by decide

/-- HOLDOVER with no anchor, with an anchor at the window's edge, and one picosecond beyond it. -/
theorem witness_HoldoverHuntsReference :
    State.reset.ftm.timer = .holdover ∧ State.reset.ftm.anchor = none ∧
    (let s := State.reset.setFtm { State.reset.ftm with anchor := some 100000000, good := 6 }
     s.ftm.timer = .holdover ∧ s.ftm.anchor = some 100000000 ∧ s.ftm.good + 1 < 8 ∧
     (107812500 ≤ 100000000 + 7812500 ∧ 100000000 ≤ 107812500 + 7812500) ∧
     ¬ (107812501 ≤ 100000000 + 7812500 ∧ 100000000 ≤ 107812501 + 7812500)) := by decide

/-- TRACKING at the second and at the third miss, with a pulse outside the window. -/
theorem witness_MissesEnterHoldover :
    base.ftm.timer = .tracking ∧ base.ftm.inWindow 0 = false ∧
    (base.setFtm { base.ftm with miss := 1 }).ftm.miss + 1 < 3 ∧
    3 ≤ (base.setFtm { base.ftm with miss := 2 }).ftm.miss + 1 ∧
    (base.setFtm { base.ftm with miss := 2 }).ftm.timer = .tracking ∧
    (base.setFtm { base.ftm with miss := 2 }).ftm.inWindow 0 = false := by decide

theorem witness_MissesEnterHoldover_tables : (base.setFtm { base.ftm with miss := 2 }).TablesOk := base_tables

/-- The edges of the tracking window. -/
theorem witness_FrameStartsAdvanceTimer :
    base.TablesOk ∧ base.ftm.timer = .tracking ∧ base.ftm.inWindow 1132812500 = true ∧
    base.ftm.inWindow 1117187500 = true ∧ base.ftm.inWindow 1132812501 = false ∧ base.ftm.miss + 1 < 3 :=
  ⟨base_tables, by decide⟩

/-- A station at the last frame of its multiframe. -/
def lastFrame (s : State) : State := s.setFtm { s.ftm with frame := 15 }

/-- The carrying source, moving from cells 64 to 67 to cells 68 to 71. -/
def movingIn (ph : CellPhase) (guard : Nat) : PathRec :=
  { carrying with state := .moving, hw := { carrying.hw with move := some ⟨some 68, 64, ph, guard⟩ } }

/-- A LOCAL record whose enable is pending, at the last frame of a multiframe and before it; a source that carries on a
JOINED station, alone and in each phase of its move. -/
theorem witness_FrameStartsAdvanceTimer_records :
    (let p : PathRec := { localRec with enablePending := true }
     (lastFrame (withRec p)).path 0 = some p ∧ p.role = .loc ∧ p.state = .defined ∧
     ((lastFrame (withRec p)).ftm.frame + 1) % 16 = 0 ∧ ((withRec p).ftm.frame + 1) % 16 ≠ 0) ∧
    (after .frameStart ownCells).hwy.station = .joined ∧
    ((after .frameStart ownCells).path 0).map (fun p => (p.role, p.live, p.hw.cells, p.hw.move)) =
      some (.source, true, some 64, none) ∧
    (after .frameStart ownCells).drivesFor 0 = [(64, false)] ∧
    (after .frameStart (withRec (movingIn .bridge 0))).drivesFor 0 = [(64, false), (68, false)] ∧
    (after .frameStart (withRec (movingIn .retiring 2))).drivesFor 0 = [(64, true), (68, false)] ∧
    (after .frameStart (withRec (movingIn .seeking 0))).drivesFor 0 = [(64, false)] := by decide +kernel

theorem withLocal_tables : (lastFrame (withRec { localRec with enablePending := true })).TablesOk := by
  unfold State.TablesOk; decide +kernel

/-- A marker at frame 15, at another frame, and at another frame with the realignment due, on a station that is not
silent. -/
theorem witness_MarkerExaminedAndRealigned :
    base.ftm.timer = .tracking ∧ base.ftm.inWindow 1125000000 = true ∧ base.ftm.frame % 16 ≠ 15 ∧
    base.ftm.realignPending = false ∧
    (base.setFtm { base.ftm with frame := 15 }).ftm.frame % 16 = 15 ∧
    (base.setFtm { base.ftm with realignPending := true }).ftm.realignPending = true ∧
    base.silent = false ∧ base.cmd.started = true := by decide

/-- A realignment that finds a source that carries, one that finds a sink that receives, and one that finds a MUTE
station. -/
theorem witness_MarkerExaminedAndRealigned_records :
    (let s := ownCells.setFtm { ownCells.ftm with frame := 7, realignPending := true }
     s.silent = false ∧ s.ftm.timer = .tracking ∧ s.ftm.inWindow 1125000000 = true ∧ s.path 0 = some carrying ∧
     carrying.offHighway = false ∧ receiving.offHighway = false ∧
     ((after (.inWindowPulse 1125000000 true) s).path 0).map (fun p => (p.state, p.hw.cells)) = some (.waiting, none)) ∧
    (base.setHwy { base.hwy with station := .mute }).silent = true := by decide +kernel

/-- A MUTE station that is owed an indication, at a boundary and at a second realignment: its warm count is 0 (R103). -/
theorem witness_MarkerExaminedAndRealigned_owed :
    let m := fun (frame : Nat) => { base with
      ftm := { base.ftm with frame := frame, realignPending := true, restoreDue := true },
      hwy := { base.hwy with station := .mute, doubt := true } }
    (m 15).hwy.station = .mute ∧ (m 15).hwy.warm = 2 ∧ (m 15).ftm.restoreDue = true ∧
    (let u := after (.inWindowPulse 1125000000 true) (m 15)
     u.hwy.station = .warming ∧ u.hwy.warm = 0 ∧ u.hwy.doubt = false) ∧
    (let u := after (.inWindowPulse 1125000000 true) (m 7)
     u.hwy.station = .mute ∧ u.hwy.warm = 0 ∧ u.hwy.doubt = true) := by decide +kernel

/-- The eighth pulse near the frame start, and beyond 1/16 frame of it. -/
theorem witness_EighthPulseReturnsToTracking :
    let s := State.reset.setFtm { State.reset.ftm with anchor := some 7812500, good := 7 }
    s.ftm.timer = .holdover ∧ s.ftm.inWindow 7812500 = true ∧ s.ftm.inWindow 7812501 = true ∧ 8 ≤ s.ftm.good + 1 ∧
    7812500 ≤ s.ftm.lastStart + 7812500 ∧ ¬ 7812501 ≤ s.ftm.lastStart + 7812500 := by decide

theorem witness_EighthPulseReturnsToTracking_mute :
    let s := State.reset.setFtm { State.reset.ftm with anchor := some 7812500, good := 7 }
    let m := s.setHwy { s.hwy with station := .mute, number := some 3 }
    m.hwy.station = .mute ∧ (after (.trackingReturn 7812501) m).hwy.station = .warming ∧
    (after (.trackingReturn 7812500) m).hwy.station = .warming := by decide +kernel

/-- A used port with and without its signal, in CONFIRM at three words, in ALIGNED at three misses, and an unused
port. -/
theorem witness_ClientReceiveEvents :
    base.used 31 = true ∧ (base.rx 31).los = false ∧
    ((base.setRx 31 { RxSide.init with los := true }).rx 31).los = true ∧
    ((base.setRx 31 { RxSide.init with align := .confirm, confirm := 3 }).rx 31).align = .confirm ∧
    ((base.setRx 31 { RxSide.init with align := .confirm, confirm := 3 }).rx 31).confirm = 3 ∧
    ((base.setRx 31 { RxSide.init with align := .aligned, miss := 3 }).rx 31).align = .aligned ∧
    ((base.setRx 31 { RxSide.init with align := .aligned, miss := 3 }).rx 31).miss = 3 ∧
    (base.setClp { base.clp with sizing := 1 }).used 1 = false := by decide

/-- An aligned port at the last place of its client frame, bound to a path with room in its store. -/
theorem witness_AlignedPortDeliversDataByte :
    let s := (after (.addPath addLocal) base).setRx 0 { RxSide.init with align := .aligned, pos := some 91 }
    s.used 0 = true ∧ (s.rx 0).align = .aligned ∧ (s.rx 0).los = false ∧ (s.rx 0).maint = false ∧
    (s.rx 0).pos = some 91 ∧ s.rxPath 0 = some 0 ∧
    (s.path 0).map (fun q => (q.source, q.k, q.fil.map (fun f => (f.dropNext, f.store.length)))) =
      some (some (.port 0), 1, some (0, 32)) ∧
    s.portAgrees 0 1 = true ∧ 32 < capacity 1 := by decide +kernel

theorem witness_ClientFrameRoundTrip :
    let t : TxSide := { TxSide.init with data := true, handed := List.replicate 90 0x11 ++ [0x22] }
    let r : RxSide := { RxSide.init with align := .aligned, pos := some 0 }
    (List.replicate 90 (0x11 : Byte)).length = 90 * 1 ∧ t.data = true ∧ t.count = 0 ∧ t.word = 0 ∧
    t.handed = List.replicate 90 0x11 ++ [0x22] ∧ r.align = .aligned ∧ r.pos = some 0 := by decide

theorem witness_ClientTransmitSends : TxSide.init.data = false ∧ TxSide.init.fillPos = 0 ∧ 31 < 32 := by decide

/-- A carrier not ALIGNED with its signal, one without, one in CONFIRM at three patterns, one ALIGNED at three misses
with a scan, and one in HUNT before the last byte of the pattern. -/
theorem witness_CarrierReceiveEvents :
    (base.carrier 3).los = false ∧ (base.carrier 3).align ≠ .aligned ∧
    ((base.setCarrier 3 { Carrier.init with los := true }).carrier 3).los = true ∧
    ((base.setCarrier 3 { Carrier.init with align := .confirm, confirm := 3 }).carrier 3).confirm = 3 ∧
    ((base.setCarrier 3 { Carrier.init with align := .confirm, confirm := 3 }).carrier 3).align = .confirm ∧
    ((base.setCarrier 3 { Carrier.init with align := .aligned, miss := 3 }).carrier 3).align = .aligned ∧
    ((base.setCarrier 3 { Carrier.init with align := .aligned, miss := 3 }).carrier 3).miss = 3 ∧
    (let s := base.setCarrier 3 { Carrier.init with held := [0x1E, 0xB4, 0x7C] }
     (s.carrier 3).align = .hunt ∧ (s.carrier 3).los = false ∧ (s.carrier 3).pos = none ∧
     (s.carrier 3).held = [0x1E, 0xB4, 0x7C]) := by decide

theorem witness_CarrierReceiveEvents_tables :
    (base.setCarrier 3 { Carrier.init with align := .aligned, miss := 3 }).TablesOk := by
  unfold State.TablesOk; decide

/-- A received frame with one berth in EXTRA. -/
def oneBerth : RxFrame :=
  { pattern := carrierPattern, index := 0, berths := [(16, ⟨0xC3, 0xC3, 0x07, 0x41, List.replicate 91 0x11⟩)] }

/-- An ALIGNED carrier that feeds a path of size 4, and a frame of it. -/
def fed : State :=
  (after (.addPath addSource) base).setCarrier 0 { Carrier.init with align := .aligned, pos := some 0 }

theorem witness_CarrierFrameIsRead :
    (Instr.carrierFrameReceived 0 oneBerth).wf = true ∧ (fed.carrier 0).align = .aligned ∧
    oneBerth.pattern = carrierPattern ∧ ((fed.feed 0).flatMap (·.handles)).Nodup ∧
    fed.feed 0 = [{ first := 16, k := 4, handles := [0], cap := Capture.init }] ∧
    ((fed.path 0).bind (·.fil)).map (fun g => g.store.length) = some (centre 4) ∧
    groupDelivery oneBerth 16 4 = some (List.replicate 91 0x11) := by decide +kernel

theorem witness_CarrierFrameIsRead_tables : fed.TablesOk := by unfold State.TablesOk; decide +kernel

/-- A group of one berth in SHORT. -/
theorem witness_GroupBytesAreDelivered :
    let b : RxBerth := ⟨0x96, 0x96, 0x96, 0x41, List.replicate 89 0x11 ++ [0, 0]⟩
    let f : RxFrame := { pattern := carrierPattern, index := 0, berths := [(431, b)] }
    (List.replicate 89 (0x11 : Byte)).length = firstBytes .short + 90 * (1 - 1) ∧
    Sparse.find f.berths 431 = some b ∧
    [b.copy1, b.copy2, b.copy3, b.label] ++ b.payload =
      (groupBytes 1 .short 0x41 (List.replicate 89 0x11)).take 95 := by decide +kernel

/-- A capture with a last cycle that equals the label, and a fresh one. -/
theorem witness_EqualCyclesConfirmLabel :
    let l := List.replicate 8 (⟨0x3C, 0x3C, 0x3C, 0x41, List.replicate 91 0⟩ : RxBerth)
    l.length = 8 ∧ (∀ b ∈ l, berthCode b ≠ .idle) ∧ Capture.init.cycle = none ∧ Capture.init.prev = none ∧
    ({ Capture.init with prev := some 15, last := some (List.replicate 8 0x41) } : Capture).last =
      some (l.map (fun b => b.label.truncate 7)) := by decide +kernel

def scanPar : ScanP := { carrier := 0, size := 16, first := 416, last := 431, step := 1, mode := 0, pattern := name, skip := 0 }

/-- Parameters out of range (the start above the end), and in range at the last berth, with the carrier in HUNT and
ALIGNED. -/
theorem witness_LabelScanBegins :
    scanInRange { scanPar with first := 416, last := 415 } = false ∧ scanInRange scanPar = true ∧
    (base.carrier 0).align ≠ .aligned ∧ (fed.carrier 0).align = .aligned := by decide +kernel

/-- A scan in progress at fifteen frames without a cycle start. -/
def scanning : State :=
  (fed.setCrx { fed.crx with scan := some { Scan.begin scanPar with stall := 15 } }).setCmd
    { fed.cmd with phase := .execution, staged := none, outFifo := [] }

theorem witness_ScanEndsWithResult :
    scanning.crx.scan = some { Scan.begin scanPar with stall := 15 } ∧ scanning.cmd.phase = .execution ∧
    scanning.cmd.inFifo = [] := by decide +kernel

/-- One candidate; the greatest number of candidates; labels of the same length with a first unequal position. -/
theorem witness_ScanCandidatesAndRelation :
    scanInRange scanPar = true ∧ lastCandidate scanPar = 416 ∧
    scanInRange { scanPar with size := 1, first := 0 } = true ∧
    lastCandidate { scanPar with size := 1, first := 0 } = 431 ∧ (431 - 0) % (1 * 1) = 0 ∧
    name.length = name.length ∧ ([0x45, 0x41] : Label).length = ([0x45, 0x42] : Label).length ∧
    ([0x45, 0x41] : Label).getD 1 0 ≠ 0x7F ∧ ([0x45, 0x41] : Label).getD 1 0 < ([0x45, 0x42] : Label).getD 1 0 ∧
    ([0x45, 0x41] : Label).getD 0 0 = ([0x45, 0x42] : Label).getD 0 0 := by decide

/-- The fill context of a new path of size 1. -/
def f1 : Fil := Fil.create 1

/-- A store with one byte, an empty store, one place left, a full store, and a source that does not deliver. -/
theorem witness_StoreBytesMove :
    (withRec localRec).path 0 = some localRec ∧ localRec.fil = some f1 ∧
    ({ f1 with store := [0x11], outStage := [] } : Fil).outStage.length < frameBytes 1 f1.outDec ∧
    ({ f1 with outStage := List.replicate 89 0 } : Fil).outStage.length < frameBytes 1 f1.outDec ∧
    (List.replicate 63 (0 : Byte)).length < capacity 1 ∧ ¬ (List.replicate 64 (0 : Byte)).length < capacity 1 ∧
    (withRec localRec).notDelivering localRec = true ∧ f1.store.length < capacity localRec.k := by decide +kernel

theorem witness_WindowEndGivesOffset :
    let f : Fil := { f1 with wCount := 7999, wSum := 3 }
    let p : PathRec := { localRec with fil := some f }
    (withRec p).path 0 = some p ∧ 0 < p.k ∧ 8000 ≤ f.wCount + 1 ∧ f.wValid = true ∧
    ({ f with wValid := false } : Fil).wValid = false := by decide +kernel

/-- A delivering source at the last window frame that does not end its window, for a SOURCE and for a LOCAL path. -/
theorem witness_OrdinaryDecisionPoint :
    let s := fed.setCarrier 0 { Carrier.init with align := .aligned, codes := [(16, .normal)], decoded := BitVec.twoPow 432 16 }
    let f : Fil := { Fil.create 4 with wCount := 7998, spacing := 3 }
    let p : PathRec := { carrying with fil := some f }
    let q : PathRec := { p with role := .loc, sink := some (.carrier 1 0) }
    (s.setPath 0 p).path 0 = some p ∧ f.forced = none ∧ f.slipPending = false ∧ f.defectSeen = false ∧
    (s.setPath 0 p).notDelivering p = false ∧ f.outStage.length = frameBytes p.k f.outDec ∧ f.wCount + 1 < 8000 ∧
    p.role = .source ∧ p.liveF = true ∧ min 255 (f.spacing + 1) = 4 ∧
    (s.setPath 0 q).path 0 = some q ∧ (s.setPath 0 q).notDelivering q = false ∧ q.role = .loc := by decide +kernel

/-- The decision point in the frame of its ADD does nothing, and this record's place is at its berth (R11, R61). -/
theorem witness_OrdinaryDecisionPoint_added :
    (withRec (addedRecord addLocal)).path 0 = some (addedRecord addLocal) ∧ (addedRecord addLocal).begun = false ∧
    ((after (.addPath { addLocal with sink := ⟨2, 1, 7⟩ }) base).path 0).map (·.place) = some (.berth 7) := by
  decide +kernel

theorem witness_SlipRecoveredAtDecisionPoint :
    let o : Forced := { nudge := false, steps := 3, limit := 64, dir := some .up }
    let f : Fil := { Fil.create 4 with slipPending := true, wCount := 7998, forced := some o, store := [] }
    let p : PathRec := { carrying with fil := some f }
    (withRec p).path 0 = some p ∧ f.slipPending = true ∧ f.outStage.length = frameBytes p.k f.outDec ∧
    f.wCount + 1 < 8000 ∧ p.role = .source ∧ f.forced = some o ∧
    ((withRec p).cnd.setting .fillSlip).type ≠ .off ∧
    ((((withRec p).setCnd { base.cnd with settings := [(11, { defaultSetting .fillSlip with type := .off })] }).cnd).setting
      .fillSlip).type = .off := by decide +kernel

/-- A RECENTRE at each distance the clauses divide at, with steps left and at its limit, and a NUDGE each way at the
clauses' edges. -/
theorem witness_ForcedOperationSteps :
    let c := State.reset.fil
    let at' := fun (n : Nat) => ({ f1 with store := List.replicate n 0 } : Fil)
    f1.slipPending = false ∧ f1.defectSeen = false ∧ min 255 (f1.spacing + 1) = 255 ∧ c.i ≤ 255 ∧
    min 255 (({ f1 with spacing := 0 } : Fil).spacing + 1) < c.i ∧
    (at' 33).diff 1 = 1 ∧ (at' 31).diff 1 = -1 ∧ (at' 34).diff 1 = 2 ∧ (at' 30).diff 1 = -2 ∧
    ({ nudge := false, steps := 63, limit := 64, dir := none } : Forced).steps < 64 ∧
    ({ nudge := false, steps := 64, limit := 64, dir := none } : Forced).steps = 64 ∧
    (at' 8).store.length < 9 ∧ 9 ≤ (at' 9).store.length ∧ capacity 1 - 8 < (at' 56).store.length + 1 ∧
    (at' 55).store.length + 1 ≤ capacity 1 - 8 ∧
    ({ nudge := true, steps := 0, limit := 2, dir := some .down } : Forced).steps + 1 < 2 ∧
    ({ nudge := true, steps := 1, limit := 2, dir := some .down } : Forced).steps + 1 = 2 := by decide

/-- The plan of one group at the last berth of a carrier. -/
def planned (r : BerthRole) (live : Bool) : State :=
  let s := withRec { localRec with carry := [{ content := ⟨.normal, List.replicate 90 0x11⟩, debtors := [.group 3 431] }] }
  s.setCbl { s.cbl with plan := [{ carrier := 3, first := 431, k := 1, handle := some 0, role := r, live := live,
                                   label := 0x41 }] }

/-- A berth with no owner; a RETIRING group; a PRIMARY group that is live and owed data; one that is not live. -/
theorem witness_GroupStartFillsGroup :
    base.groupAt 3 431 = none ∧
    ((planned .retiring true).groupAt 3 431).map (fun g => (g.first, g.handle, g.role)) = some (431, some 0, .retiring) ∧
    ((planned .primary true).groupAt 3 431).map (fun g => (g.first, g.handle, g.role, g.live)) =
      some (431, some 0, .primary, true) ∧
    ((planned .primary true).path 0).map (fun p => (p.sq.on, (takeCarry (.group 3 431) p.carry).1.map (·.code))) =
      some (false, some .normal) ∧
    ((planned .primary false).groupAt 3 431).map (fun g => (g.role, g.live)) = some (.primary, false) := by
  decide +kernel

theorem witness_CarryQueueKeepsOrder :
    let e : CarryEntry := { content := ⟨.normal, []⟩, debtors := [.client 0, .group 0 0] }
    ([.client 0] : List Debtor) ≠ [] ∧ [e].length < 2 ∧ (∀ x ∈ [e], Debtor.client 1 ∉ x.debtors) ∧
    Debtor.client 0 ∈ e.debtors ∧ e.debtors.filter (fun x => !(x == Debtor.client 0)) ≠ [] ∧
    ([.client 0] : List Debtor).filter (fun x => !(x == Debtor.client 0)) = [] := by decide

/-- A record with a sink; a selected source present, and none; a lift at the boundary value of the quiet count. -/
theorem witness_SquelchOnsetAndLift :
    (withRec localRec).path 0 = some localRec ∧ localRec.hasSink = true ∧
    ({ localRec with srcBadSeen := true } : PathRec).selectedPresent = true ∧ localRec.selectedPresent = false ∧
    (let p : PathRec := { localRec with sq := { localRec.sq with on := true, quiet := 2 } }
     p.sq.on = true ∧ p.sq.forced = false ∧ base.cbl.holdoff ≤ p.sq.quiet) := by decide +kernel

/-- A passing message between two other stations, and one that fails, on a map that holds each kind of entry. -/
def mapped : State :=
  base.setHwy { base.hwy with cells := [(64, .reserved 5 43 1 false false), (65, .held 5 43 31 true), (66, .ownHeld 3 41)] }

theorem witness_HeardMessageChangesRun :
    mapped.isOwn (msg 5 9 43).sender = false ∧ mapped.isOwn (msg 5 9 43).addressee = false ∧
    (∀ x ∈ mapped.hwy.mons, x = .idle) ∧ (Msg.claim (msg 5 9 43)).passes = true ∧
    (Msg.accept (msg 9 5 43)).passes = true ∧ (Msg.refuse (msg 9 5 43) .noPath).passes = true ∧
    (Msg.release (msg 5 9 43) .sinkGone).passes = true ∧ (Msg.claim (msg 5 9 0)).passes = false ∧
    mapped.entry 64 = .reserved 5 43 1 false false ∧ mapped.entry 65 = .held 5 43 31 true ∧
    (mapped.entry 66).isOwn = true ∧ mapped.entry 67 = .free := by decide +kernel

theorem mapped_tables : mapped.TablesOk := by unfold State.TablesOk; decide

theorem witness_CellMapFollowsCells :
    mapped.entry 64 = .reserved 5 43 1 false false ∧ mapped.entry 65 = .held 5 43 31 true ∧ mapped.hwy.drives = [] ∧
    (∀ m ∈ mapped.hwy.mons, m = .idle) ∧ (mapped.entry 64).isOwn = false ∧ (mapped.entry 65).isOwn = false ∧
    decodeHeader (encodeHeader ⟨5, 43, 0, .normal, 0⟩) = some ⟨5, 43, 0, .normal, 0⟩ ∧
    decodeHeader (BitVec.allOnes 42) = none ∧ 0 + 1 < 2 ∧ 2 ≤ 1 + 1 ∧ ¬ 32 ≤ 30 + 1 ∧ 32 ≤ 31 + 1 := by decide +kernel

/-- A sink that copies cells 64 to 67: its first and last cell and the next one; a header of its path at the right place
and at another, of another path, and a line that carries no header. -/
theorem witness_CellMapFollowsCells_copy :
    let p : PathRec := { receiving with sk := { receiving.sk with copy := some 64 } }
    let s := withRec p
    s.path 0 = some p ∧ p.receives = true ∧ p.sk.cells = some 64 ∧ Sparse.rising p.sk.missing = true ∧ p.k = 4 ∧
    inRun 68 p.k p.sk.copy = false ∧ s.hwy.drives = [] ∧ (∀ m ∈ s.hwy.mons, m = .idle) ∧ (s.entry 64).isOwn = false ∧
    (s.entry 67).isOwn = false ∧ p.remote = some 9 ∧ p.tag = 42 ∧
    decodeHeader (encodeHeader ⟨9, 42, 3, .normal, 0⟩) = some ⟨9, 42, 3, .normal, 0⟩ ∧
    decodeHeader (encodeHeader ⟨9, 43, 3, .normal, 0⟩) = some ⟨9, 43, 3, .normal, 0⟩ ∧
    decodeHeader 1 = none ∧ (1 : BitVec 42) ≠ BitVec.allOnes 42 := by decide +kernel

/-- The run that `ownCells` drives. -/
def drive : Drive := { handle := 0, tag := 41, k := 4, first := 64, retired := false, content := none, label := 0 }

/-- The last cell of the run; a line that reads back, and one that does not; the third and the fourth collision. -/
def driving (attempt : Nat) : State :=
  let s := ownCells.setHwy { ownCells.hwy with drives := [drive] }
  s.setPath 0 { carrying with hw := { carrying.hw with attempt := attempt } }

theorem witness_DrivenCellAndCollision :
    (driving 2).hwy.drives.find? (fun e => decide (e.first ≤ 67) && decide (67 < e.first + e.k)) = some drive ∧
    driveLine (encodeHeader (drive.header 3 3)) (BitVec.allOnes 42) 0 = encodeHeader (drive.header 3 3) ∧
    driveLine (encodeHeader (drive.header 3 3)) 0 0 ≠ encodeHeader (drive.header 3 3) ∧
    driveLine (encodeHeader (drive.header 3 3)) (BitVec.allOnes 42) 1 ≠ encodeHeader (drive.header 3 3) ∧
    (driving 2).self = 3 ∧ (driving 2).listed 0 = false ∧ (driving 2).hasRoom = true ∧
    ((driving 2).path 0).map (fun p => (p.tag, p.state, p.hw.cells, p.hw.attempt)) = some (41, .carrying, some 64, 2) ∧
    ((driving 3).path 0).map (fun p => (p.tag, p.state, p.hw.cells, p.hw.attempt)) = some (41, .carrying, some 64, 3) := by
  decide +kernel

theorem driving_tables : (driving 2).TablesOk := by unfold State.TablesOk; decide +kernel

/-- A sink that has queued an ACCEPT, and a source that has queued its CLAIM. -/
def accepted : State :=
  let s := withRec { sinkRec with state := .accepted, sk := { sinkRec.sk with cells := some 64, status := some .queued } }
  s.setHwy { s.hwy with sendQ := [{ msg := .accept (msg 3 9 42), age := 15 }] }

def claimQueued : State :=
  claiming.setHwy { claiming.hwy with
    mons := [.bound { handle := 0, tag := 41, addressee := 9, first := 64, k := 4, move := false }, .idle],
    sendQ := [freshMsg (.claim (msg 3 9 41))] }

theorem witness_ControlBurstOutcomes :
    base.contender = none ∧ (Msg.claim (msg 5 9 43)).passes = true ∧
    claimQueued.hwy.sendQ = [freshMsg (.claim (msg 3 9 41))] ∧ claimQueued.hwy.yielding = false ∧
    claimQueued.maySend (.claim (msg 3 9 41)) = true ∧
    Monitor.bound { handle := 0, tag := 41, addressee := 9, first := 64, k := 4, move := false } ∈ claimQueued.hwy.mons ∧
    accepted.maySend (.accept (msg 3 9 42)) = true ∧
    (accepted.path 0).map (fun p => (p.role, p.tag, p.sk.status)) = some (.sink, 42, some .queued) ∧
    base.maySend (.refuse (msg 3 9 42) .noPath) = true ∧ base.maySend (.release (msg 3 9 42) .moved) = true := by
  decide +kernel

/-- A sink in the state of each row of R130's table, for the CLAIM of cells 64 to 67 with its tag; an entry that
conflicts. -/
def sinkIn (st : PState) : State := withRec { sinkRec with state := st }

theorem witness_SinkAnswersClaim :
    (Msg.claim (msg 9 3 42)).passes = true ∧ base.isOwn (msg 9 3 42).addressee = true ∧
    (∀ x ∈ base.hwy.mons, x = .idle) ∧ base.hasRoom = true ∧ base.findTag .sink 42 = none ∧
    (sinkIn .defined).findTag .sink 42 = some (0, sinkRec) ∧ sinkRec.remote = some 9 ∧ sinkRec.remote ≠ some 5 ∧
    sinkRec.k = 4 ∧ sinkRec.k ≠ 1 ∧ (sinkIn .accepted).path 0 = some { sinkRec with state := .accepted } ∧
    ({ sinkRec with state := .receiving } : PathRec).receives = true ∧ sinkRec.sk.rawLoss = false ∧
    (sinkIn .listening).path 0 = some { sinkRec with state := .listening } ∧ sinkRec.bmove = none ∧
    sinkRec.sk.move = none ∧ (sinkIn .listening).conflict (msg 9 3 42) = false ∧
    (mapped.setPath 0 { sinkRec with state := .listening }).conflict (msg 9 3 42) = true := by decide +kernel

theorem witness_ClaimantTakesAnswer :
    claiming.isOwn (msg 9 3 41).addressee = true ∧ claiming.isOwn (msg 9 3 41).sender = false ∧
    claiming.hwy.mons = [.running { handle := 0, tag := 41, addressee := 9, first := 64, k := 4, move := false } 1, .idle] ∧
    (claiming.path 0).map (fun p => (p.role, p.state, p.k, p.hw.cells)) = some (.source, .claiming, 4, some 64) ∧
    (∀ x ∈ [64, 65, 66, 67], (claiming.entry x).isOwn = true) ∧ (Msg.accept (msg 9 3 41)).passes = true ∧
    (Msg.refuse (msg 9 3 41) .noPath).passes = true ∧ (Msg.refuse (msg 9 3 41) .sinkBusy).passes = true ∧
    claiming.listed 0 = false := by decide +kernel

/-- A RELEASE for a sink that receives and for one that has accepted; SINK_GONE for a source that carries; an ACCEPT at
its sixteenth frame start. -/
theorem witness_SinksAndSourcesAreReleased :
    (Msg.release (msg 9 3 42) .deleted).passes = true ∧ base.isOwn (msg 9 3 42).addressee = true ∧
    (withRec receiving).findTag .sink 42 = some (0, receiving) ∧ (withRec receiving).path 0 = some receiving ∧
    receiving.remote = some 9 ∧ receiving.sk.cells = some 64 ∧ receiving.k = 4 ∧ receiving.bmove = none ∧
    receiving.sk.move = none ∧ (withRec receiving).listed 0 = false ∧
    (accepted.path 0).map (fun p => (p.state, p.sk.cells, p.sk.status)) = some (.accepted, some 64, some .queued) ∧
    (Msg.release (msg 9 3 41) .sinkGone).passes = true ∧ ownCells.findTag .source 41 = some (0, carrying) ∧
    carrying.remote = some 9 ∧ carrying.hw.cells = some 64 ∧ (ownCells.entry 67).isOwn = true ∧
    accepted.hwy.sendQ = [{ msg := .accept (msg 3 9 42), age := 15 }] ∧
    (accepted.findTag .sink 42).map (fun e => (e.1, e.2.state)) = some (0, .accepted) := by decide +kernel

/-- The last multiframe of a backoff, a claim, a clean count, a loss and a warm-up. -/
theorem witness_HighwayCountsExpire :
    (let p : PathRec := { sourceRec with state := .collided, hw := { sourceRec.hw with backoff := some 1 } }
     (withRec p).path 0 = some p ∧ p.hw.backoff = some 1) ∧
    claiming.hwy.mons = [.running { handle := 0, tag := 41, addressee := 9, first := 64, k := 4, move := false } 1, .idle] ∧
    Monitor.idle.isFor 0 = false ∧ (claiming.path 0).map (fun p => (p.state, p.hw.cells)) = some (.claiming, some 64) ∧
    claiming.hwy.block = false ∧ (claiming.setHwy { claiming.hwy with block := true }).hwy.block = true ∧
    claiming.hasRoom = true ∧
    (let p : PathRec := { carrying with hw := { carrying.hw with clean := 63, cleanRun := true } }
     (withRec p).path 0 = some p ∧ p.role = .source ∧ p.live = true ∧ p.hw.cleanRun = true) ∧
    (let p : PathRec := { receiving with sk := { receiving.sk with rawLoss := true, loss := 1 } }
     (withRec p).path 0 = some p ∧ p.receives = true ∧ p.sk.rawLoss = true ∧ p.bmove = none ∧ p.sk.status = none) ∧
    (base.setHwy { base.hwy with station := .warming, warm := 1 }).hwy.station = .warming := by decide +kernel

/-- A sink whose ACCEPT was sent, a claimant that has heard its own, and a sink that has watched a complete run, each
settled, at the last frame of a multiframe. -/
def sentSink : PathRec :=
  { sinkRec with state := .accepted, sk := { sinkRec.sk with cells := some 64, status := some .sent } }
def heardSource : PathRec :=
  { sourceRec with state := .claiming, hw := { sourceRec.hw with cells := some 64, acceptHeard := true } }
def watching : PathRec := { sinkRec with state := .listening, sk := { sinkRec.sk with watch := some 64, watchSeen := [64, 65, 66, 67] } }

theorem lastFrame_settled (p : PathRec) (hu : p.undo = none) : (lastFrame (withRec p)).settled 0 p :=
  ⟨rfl, by intro m hm; revert m; exact (by decide : ∀ m ∈ base.hwy.mons, m.isFor 0 = false), hu,
    by intro q hq; exact absurd hq (List.not_mem_nil)⟩

theorem lastFrame_boundary (s : State) : ((lastFrame s).ftm.frame + 1) % 16 = 0 := by simp [lastFrame]

theorem witness_HighwayCountsExpire_boundary :
    (∀ p ∈ [sentSink, heardSource, watching], p.undo = none ∧ p.bmove = none ∧ p.hw.move = none ∧ p.sk.move = none) ∧
    (sentSink.role, sentSink.state, sentSink.sk.status) = (.sink, .accepted, some .sent) ∧
    (heardSource.role, heardSource.state, heardSource.hw.acceptHeard) = (.source, .claiming, true) ∧
    (watching.role, watching.state, watching.sk.watch) = (.sink, .listening, some 64) ∧
    completeRun watching.sk.watchSeen watching.k 64 = true ∧ (lastFrame (withRec watching)).mayCreate = true ∧
    ((after .frameStart (lastFrame (withRec watching))).path 0).map (fun p => (p.state, p.sk.cells)) =
      some (.receiving, some 64) := by decide +kernel

theorem witness_HighwayCountsExpire_tables : (lastFrame (withRec sentSink)).TablesOk ∧
    (lastFrame (withRec heardSource)).TablesOk ∧ (lastFrame (withRec watching)).TablesOk := by
  unfold State.TablesOk; decide +kernel

theorem witness_CellChoiceTakesLowestFreeRun :
    base.findRun 16 = some 0 ∧ mapped.findRun 1 = some 0 ∧
    (base.setHwy { base.hwy with cells := [(0, .ownHeld 3 41), (5, .ownHeld 3 42)] }).findRun 4 = some 8 := by decide +kernel

theorem witness_MoveSwitches :
    (let m : BerthMove := { newC := 3, newB := 431, oldC := 1, oldB := 0, phase := .bridge, guard := 1 }
     let p : PathRec := { localRec with state := .moving, bmove := some m }
     (withRec p).path 0 = some p ∧ m.guard + 1 = base.cbl.guard ∧ 0 < p.k ∧ (m.oldC, m.oldB) ≠ (m.newC, m.newB) ∧
     m.oldB % p.k = 0 ∧ m.newB % p.k = 0 ∧ m.oldB + p.k ≤ 432 ∧ m.newB + p.k ≤ 432) ∧
    (let m : CellMove := { new := some 68, old := 64, phase := .bridge, guard := 1 }
     let p : PathRec := { carrying with state := .moving, hw := { carrying.hw with move := some m } }
     (withRec p).path 0 = some p ∧ m.guard + 1 = base.cbl.guard) ∧
    (let m : SinkMove := { new := 68, status := .bridging, guard := 1 }
     let p : PathRec := { receiving with sk := { receiving.sk with move := some m } }
     (withRec p).path 0 = some p ∧ m.guard + 1 = base.cbl.guard) := by decide +kernel

/-- A LOCAL record in a phase of its move of berths, and a sink in a phase of its move of cells. -/
def berthsIn (ph : BerthPhase) (guard : Nat) : PathRec :=
  { localRec with state := .moving, bmove := some ⟨3, 431, 1, 0, ph, guard⟩ }
def sinkMoving (st : SinkMoveStatus) (guard : Nat) : PathRec :=
  { receiving with sk := { receiving.sk with move := some ⟨68, st, guard⟩ } }

/-- The phases of a move at a boundary, each settled (`lastFrame_settled`); the new berths free, and owned by another
record. -/
theorem witness_MoveSwitches_phases :
    (∀ ph ∈ [BerthPhase.bridge, .retiring], (berthsIn ph 0).state = .moving ∧ (berthsIn ph 0).role = .loc ∧
      (berthsIn ph 0).hw.move = none ∧ (berthsIn ph 0).undo = none) ∧
    (∀ ph ∈ [CellPhase.accepted, .bridge, .retiring], (movingIn ph 0).state = .moving ∧ (movingIn ph 0).role = .source ∧
      (movingIn ph 0).bmove = none ∧ (movingIn ph 0).undo = none) ∧
    (∀ st ∈ [SinkMoveStatus.sent, .bridging], (sinkMoving st 0).receives = true ∧ (sinkMoving st 0).bmove = none ∧
      (sinkMoving st 0).hw.move = none ∧ (sinkMoving st 0).sk.loss = 0 ∧ (sinkMoving st 0).undo = none) ∧
    0 + 1 < base.cbl.guard ∧ base.cbl.guard ≤ 1 + 1 ∧ (berthsIn .pending 0).k = 1 ∧ 431 + 1 ≤ 432 ∧
    (withRec (berthsIn .pending 0)).owner 3 431 = none ∧
    (let s := withRec (berthsIn .pending 0)
     (s.setCbl { s.cbl with owners := [(berthKey 3 431, { handle := 7, role := .primary })] }).owner 3 431 =
       some { handle := 7, role := .primary }) := by decide +kernel

theorem witness_MoveSwitches_tables : (lastFrame (withRec (berthsIn .bridge 0))).TablesOk ∧
    (lastFrame (withRec (movingIn .accepted 0))).TablesOk ∧ (lastFrame (withRec (sinkMoving .sent 0))).TablesOk := by
  unfold State.TablesOk; decide +kernel

/-- An instance one multiframe before it is declared, before it is cleared and before it repeats; a queue of 63, of 64,
and under quiet. -/
def instAt (i : Inst) : State := base.setInst i

def record : CondRec := { kind := .refLost, obj := .station, edge := .rise, mfCount := 7, overflow := false, dropped := 0 }

theorem witness_SoaksRepeatsAndQueue :
    (instAt ⟨.refLost, .station, true, false, 3, 0⟩).inst .refLost .station = some ⟨.refLost, .station, true, false, 3, 0⟩ ∧
    soakLength 0 1 ≤ min 72 (3 + 1) ∧
    (instAt ⟨.refLost, .station, false, true, 19, 0⟩).inst .refLost .station = some ⟨.refLost, .station, false, true, 19, 0⟩ ∧
    soakLength 3 2 ≤ min 72 (19 + 1) ∧
    (instAt ⟨.refLost, .station, true, true, 0, 39⟩).inst .refLost .station = some ⟨.refLost, .station, true, true, 0, 39⟩ ∧
    soakLength 3 3 ≤ min 72 (39 + 1) ∧
    ({ base.cnd with quiet := true } : Cnd).quiet = true ∧ base.cnd.quiet = false ∧
    (List.replicate 63 record).length < 64 ∧ 64 ≤ (List.replicate 63 record ++ [record]).length := by decide +kernel

/-- The last type, the last codes, and each field out of range; an event with RAISE_CLEAR; a declared instance to
stand. -/
theorem witness_ConditionCommands :
    kindOf 10 = some .squelched ∧ condIsEvent .squelched = false ∧ kindOf 12 = some .messageCheck ∧
    condIsEvent .messageCheck = true ∧ Sparse.rising base.cnd.settings = true ∧ kindOf 0 = none ∧ kindOf 13 = none ∧
    3 < 4 ∧ 7 ≤ 7 ∧ 3 ≤ 3 ∧ ((instAt ⟨.refLost, .station, true, true, 0, 0⟩).cnd.insts.filter (fun e =>
      e.2.declared && !((base.cnd.setting e.2.kind).type == .off))).length = 1 := by decide +kernel

theorem witness_PortBytes :
    (List.replicate 15 (0 : Byte)).length < 16 ∧ 16 ≤ (List.replicate 16 (0 : Byte)).length ∧ base.cmd.outFifo = [] ∧
    (base.answer (List.replicate 17 0)).cmd.staged = some [0] ∧ (base.answer [5]).cmd.outFifo = [5] ∧
    (base.answer [5]).cmd.staged = some [] ∧ (base.answer [5]).ready ∧ base.cmd.inProgress = none ∧
    paramCount 0x82 = some 2 ∧ ([] : List Byte).length + 1 < 2 ∧ ((0x7F : Byte) < 0x80) ∧ ¬ ((0x80 : Byte) < 0x80) ∧
    paramCount 0x93 = none :=
  ⟨by decide, by decide, rfl, rfl, rfl, rfl, ⟨by decide, rfl⟩, rfl, rfl, by decide, by decide, by decide, rfl⟩

theorem witness_ResultReadsInOrder : List.replicate 17 (0 : Byte) ≠ [] := by decide

theorem witness_HostBytesSpellCommands : (HostCmd.movePath 16383 127 127 16383).fits = true := by decide

theorem witness_StartSetsStation :
    State.reset.ready ∧ State.reset.TablesOk ∧ State.reset.cmd.started = false ∧ base.cmd.started = true ∧ 15 < 16 ∧
    (0x01#8).getLsbD (3 / 4) ≠ State.reset.clp.sizing.getLsbD (3 / 4) ∧
    (0x01#8).getLsbD (4 / 4) = State.reset.clp.sizing.getLsbD (4 / 4) :=
  ⟨⟨by decide, rfl⟩, reset_tables, rfl, rfl, by decide, by decide, by decide⟩

/-- Each role accepted; a tag of 0; a refusal. -/
theorem witness_AddPathCreatesRecord :
    base.ready ∧ base.TablesOk ∧ addLocal.inRange = true ∧ base.addRefusal addLocal = none ∧ addSource.inRange = true ∧
    base.addRefusal addSource = none ∧ addSink.inRange = true ∧ base.addRefusal addSink = none ∧
    ({ addLocal with tag := 0 } : AddP).inRange = false ∧
    base.addRefusal { addSource with remote := 3 } = some .roleMismatch :=
  ⟨base_ready, base_tables, by decide +kernel⟩

theorem witness_DeletePathRemovesRecord :
    ownCells.TablesOk ∧ ownCells.path 0 = some carrying ∧ ownCells.path 1 = none ∧ carrying.role = .source ∧
    carrying.state = .carrying ∧ carrying.hw.cells = some 64 ∧ ownCells.hasRoom = true ∧
    (ownCells.entry 64).isOwn = true :=
  ⟨ownCells_tables, by decide +kernel⟩

theorem ownCells_ready : ownCells.ready := base_ready

/-- A record of each role as the clauses ask; an unstarted station; a remote station that is the own one. -/
theorem witness_EnableAndDisablePath :
    ownCells.ready ∧ ownCells.TablesOk ∧ State.reset.cmd.started = false ∧ base.cmd.started = true ∧
    ({ sourceRec with remote := some 3 } : PathRec).remote = base.hwy.number ∧ sourceRec.remote ≠ base.hwy.number ∧
    localRec.role = .loc ∧ localRec.state = .defined ∧ sourceRec.role = .source ∧ sinkRec.role = .sink ∧
    carrying.fil = some (Fil.create 4) ∧ (Fil.create 4).forced = none ∧ carrying.bmove = none ∧
    carrying.hw.move = none ∧ carrying.hw.cells = some 64 :=
  ⟨ownCells_ready, ownCells_tables, by decide +kernel⟩

theorem witness_MoveAndForcedCommands :
    (withRec carrying).ready ∧ (withRec carrying).path 0 = some carrying ∧ base.cmd.started = true ∧
    carrying.role = .source ∧ carrying.live = true ∧
    (let p : PathRec := { localRec with state := .carrying }
     (withRec p).path 0 = some p ∧ p.sink = some (.carrier 1 0) ∧ 431 % p.k = 0 ∧ 431 + p.k ≤ 432 ∧
     (withRec p).owner 3 431 = none) ∧
    ¬ (431 % receiving.k = 0 ∧ 431 + receiving.k ≤ 432) ∧ receiving.role = .sink ∧
    receiving.sink = some (.carrier 2 8) ∧ sourceRec.live = false ∧
    ({ Fil.create 4 with forced := some ⟨false, 0, 64, none⟩ } : Fil).forced ≠ none ∧ (Fil.create 4).forced = none :=
  ⟨withRec_ready _, by decide +kernel⟩

theorem witness_ReadCommands :
    base.ready ∧ base.TablesOk ∧ base.path 0 = none ∧ (withRec localRec).path 0 = some localRec ∧
    localRec.label = none ∧ (withRec localRec).confirmed localRec = none ∧ 1008 + 16 ≤ 1024 ∧ 1024 < 1009 + 16 :=
  ⟨base_ready, base_tables, by decide +kernel⟩

/-- A list of one completion. -/
def posted : State := (withRec sourceRec).post 0 .claimExpired

theorem posted_completions : posted.CompletionsOk := by
  refine ⟨by decide, ?_, ?_⟩
  · intro e he
    exact ⟨sourceRec.posted false .claimExpired, by simp_all [posted, State.post, withRec, State.path, base, State.setPath,
      State.listed, State.setPtb, Sparse.insert, Sparse.find, State.reset, PathRec.posted]⟩
  · intro h p hp
    have : posted.ptb.paths = [(0, sourceRec.posted false .claimExpired)] := rfl
    simp only [State.path, this, Sparse.find] at hp
    split at hp
    · subst_vars; cases hp; decide
    · cases hp

theorem witness_SenseReturnsOldestCompletion :
    posted.ready ∧ posted.CompletionsOk ∧ base.ptb.completions = [] ∧ posted.ptb.completions = [(0, .claimExpired)] ∧
    (posted.path 0).isSome = true :=
  ⟨base_ready, posted_completions, rfl, rfl, rfl⟩

/-- A message, a header, and the cells of a run of one in EXTRA. -/
theorem witness_HighwayWordsRoundTrip :
    (Msg.refuse { sender := 15, addressee := 0, tag := 65535, first := 1008, size := 16, move := true } .cellConflict).passes
      = true ∧
    decodeMsg (encodeMsg (.accept (msg 9 3 41))) = some (.accept (msg 9 3 41)) ∧
    decodeHeader (encodeHeader ⟨15, 65535, 15, .idle, 0x7F⟩) = some ⟨15, 65535, 15, .idle, 0x7F⟩ ∧
    (List.replicate 91 (0x11 : Byte)).length = firstBytes .extra + 90 * (1 - 1) ∧
    Sparse.find [(0, (⟨.extra, 0, positions .extra (List.replicate 91 0x11) 0⟩ : RxCell))] 0 =
      some ⟨codeAt .extra 0, 0, positions .extra (List.replicate 91 0x11) 0⟩ := by decide +kernel

/-- The invariants hold at a state that steps. -/
theorem witness_StepKeepsInvariants :
    (∃ t, step State.reset = .next t) ∧ State.reset.StationOk ∧ State.reset.PathsOk ∧ State.reset.MuteOk :=
  ⟨⟨_, rfl⟩, ⟨by decide, by decide, by decide, by decide⟩, fun _ _ h => (by cases h), fun _ _ _ h => (by cases h)⟩

theorem witness_StepKeepsInvariants_tables :
    base.Bounded ∧ base.PortOk ∧ State.reset.CompletionsOk :=
  ⟨by unfold State.Bounded; decide, by unfold State.PortOk; decide, by decide, by decide, fun _ _ h => (by cases h)⟩

theorem witness_RecordIdentityIsFixed :
    ownCells.TablesOk ∧ ownCells.cmd.inFifo = [] ∧ ownCells.path 0 = some carrying ∧
    (after (.disablePath 0) ownCells).path 0 ≠ none :=
  ⟨ownCells_tables, by decide +kernel⟩

end Sys2Proof.Tests
end

/-! ## Proofs: the path table

A command that a ready port takes, and SENSE with the completion list (R57). -/

namespace Sys2Proof.Machine

/-! ### A command at a ready port (R182 to R184) -/

/-- An empty input FIFO leaves no byte to take. -/
theorem State.drain_of_inFifo_nil {s : State} (hf : s.cmd.inFifo = []) : s.drain = s := by
  simp [State.drain, State.takeMany, hf]

/-- A result that is discarded leaves no trace in the next one. -/
theorem Cmd.stage_discard (l : List Byte) (w : Bool) (c : Cmd) : c.discard.stage l w = c.stage l w := rfl

/-- A ready port serves a command at once; what its port state was before does not show in the result it stages. -/
theorem State.hostCommand_of_ready {s : State} (hs : s.ready) (k : HostCmd) :
    ∃ c, s.hostCommand k = (s.setCmd c).serve k ∧ ∀ l w, c.stage l w = s.cmd.stage l w := by
  obtain ⟨hphase, hfifo⟩ := hs
  unfold State.hostCommand
  rw [State.drain_of_inFifo_nil hfifo]
  cases hp : s.cmd.phase with
  | command => exact ⟨{ s.cmd with inProgress := none }, by simp only [hp], fun _ _ => rfl⟩
  | result => exact ⟨s.cmd.discard, by simp only [hp], fun l w => Cmd.stage_discard l w s.cmd⟩
  | execution => exact absurd hp hphase

/-- An answer overwrites a port state that stages results alike. -/
theorem State.answer_setCmd {s : State} {c : Cmd} (hc : ∀ l w, c.stage l w = s.cmd.stage l w) (l : List Byte) :
    (s.setCmd c).answer l = s.answer l := by
  simp [State.answer, hc]

/-! ### The completion list (R56) -/

/-- A handle is unlisted exactly when no entry of the list is of it. -/
theorem State.listed_eq_false_iff (s : State) (h : Nat) :
    s.listed h = false ↔ h ∉ s.ptb.completions.map (·.1) := by
  simp only [State.listed, List.any_eq_false, List.mem_map, beq_iff_eq, not_exists, not_and]

/-- A post of a handle in use that is not listed joins the end of the list. -/
theorem State.post_completions_of_unlisted {s : State} {h : Nat} {p : PathRec} (hp : s.path h = some p)
    (hl : s.listed h = false) (c : Completion) :
    (s.post h c).ptb.completions = s.ptb.completions ++ [(h, c)] := by
  rcases s.post_cases h c with ⟨hnone, _⟩ | ⟨_, _, _, _, hcompl, _⟩
  · simp [hp] at hnone
  · simpa [hl] using hcompl

/-! ### SENSE (R57) -/

/-- The state in which SENSE answers: the oldest entry, of the handle `h` with the record `p`, is gone and `rest` is
what is left of the list. -/
def State.sensed (s : State) (h : Nat) (p : PathRec) (rest : List (Nat × Completion)) : State :=
  (s.setPtb { s.ptb with completions := rest }).setPath h { p with superseded := 0, completionPending := false }

@[simp] theorem State.path_sensed_self (s : State) (h : Nat) (p : PathRec) (rest : List (Nat × Completion)) :
    (s.sensed h p rest).path h = some { p with superseded := 0, completionPending := false } :=
  State.path_setPath_self _ _ _

@[simp] theorem State.sensed_completions (s : State) (h : Nat) (p : PathRec) (rest : List (Nat × Completion)) :
    (s.sensed h p rest).ptb.completions = rest := rfl

theorem State.sensed_setCmd (s : State) (c : Cmd) (h : Nat) (p : PathRec) (rest : List (Nat × Completion)) :
    (s.setCmd c).sensed h p rest = (s.sensed h p rest).setCmd c := rfl

theorem State.sensed_sameOthers (s : State) (h : Nat) (p : PathRec) (rest : List (Nat × Completion)) :
    sameOthers h s (s.sensed h p rest) := fun _ hg => State.path_setPath_ne _ _ hg

theorem State.sensed_sameButPaths (s : State) (h : Nat) (p : PathRec) (rest : List (Nat × Completion)) :
    sameButPaths s (s.sensed h p rest) := ⟨rfl, rfl, rfl, rfl, rfl, rfl, rfl, rfl⟩

/-- A list without repetition holds no second entry of the handle that was sensed. -/
theorem State.sensed_unlisted {s : State} {h : Nat} {c : Completion} {rest : List (Nat × Completion)}
    (hs : s.CompletionsOk) (hl : s.ptb.completions = (h, c) :: rest) (p : PathRec) :
    (s.sensed h p rest).listed h = false := by
  obtain ⟨hnodup, _, _⟩ := hs
  rw [hl, List.map_cons, List.nodup_cons] at hnodup
  exact (State.listed_eq_false_iff _ h).mpr hnodup.1

theorem State.serveSense_nil {s : State} (hl : s.ptb.completions = []) : s.serveSense = s.answer [1] := by
  simp only [State.serveSense, hl]
  rfl

theorem State.serveSense_cons {s : State} {h : Nat} {c : Completion} {rest : List (Nat × Completion)} {p : PathRec}
    (hl : s.ptb.completions = (h, c) :: rest) (hp : s.path h = some p) :
    s.serveSense =
      (s.sensed h p rest).answer ([0] ++ be2 h ++ c.out ++ [p.state.out, BitVec.ofNat 8 p.superseded]) := by
  simp only [State.serveSense, hl, hp]
  rfl

/-- SENSE at a ready port is served in the state as it is, up to port state that its answer overwrites. -/
theorem exec_sense_of_ready {s : State} (hs : s.ready) :
    ∃ c, exec .sense s = .next (s.setCmd c).serveSense ∧ ∀ l w, c.stage l w = s.cmd.stage l w := by
  obtain ⟨c, hserve, hstage⟩ := State.hostCommand_of_ready hs .sense
  exact ⟨c, congrArg Host.Outcome.next hserve, hstage⟩

theorem exec_sense_nil {s : State} (hs : s.ready) (hl : s.ptb.completions = []) :
    exec .sense s = .next (s.answer [1]) := by
  obtain ⟨c, hexec, hstage⟩ := exec_sense_of_ready hs
  rw [hexec, State.serveSense_nil (s := s.setCmd c) hl, State.answer_setCmd hstage]

theorem exec_sense_cons {s : State} {h : Nat} {c : Completion} {rest : List (Nat × Completion)} {p : PathRec}
    (hs : s.ready) (hl : s.ptb.completions = (h, c) :: rest) (hp : s.path h = some p) :
    exec .sense s = .next ((s.sensed h p rest).answer
      ([0] ++ be2 h ++ c.out ++ [p.state.out, BitVec.ofNat 8 p.superseded])) := by
  obtain ⟨cmd, hexec, hstage⟩ := exec_sense_of_ready hs
  have hsame : ∀ l w, cmd.stage l w = (s.sensed h p rest).cmd.stage l w := hstage
  rw [hexec, State.serveSense_cons (s := s.setCmd cmd) hl hp, State.sensed_setCmd, State.answer_setCmd hsame]

/-- Settles O52: the answer is `exec_sense_nil` or `exec_sense_cons`; a later post appends because the list, without
repetition, holds no second entry of the sensed handle. -/
theorem senseReturnsOldestCompletion : Obligations.SenseReturnsOldestCompletion := by
  intro s hready hok
  refine ⟨exec_sense_nil hready, fun h c rest p hl hp => ?_⟩
  have hpost (c' : Completion) : ((s.sensed h p rest).post h c').ptb.completions = rest ++ [(h, c')] :=
    State.post_completions_of_unlisted (s.path_sensed_self h p rest) (State.sensed_unlisted hok hl p) c'
  exact ⟨s.sensed h p rest, exec_sense_cons hready hl hp, s.path_sensed_self h p rest,
    s.sensed_completions h p rest, s.sensed_sameOthers h p rest, s.sensed_sameButPaths h p rest, rfl, hpost⟩

end Sys2Proof.Machine

/-! ## Proofs: the carrier builders

What a group carries in a frame and GROUP_START, which fills it (R85). -/

namespace Sys2Proof.Machine

/-! ### What a group carries (R85) -/

/-- A berth that no path owns is one IDLE berth: every copy of the code, the label and every position are 0x00 (R13). -/
theorem groupBytes_idle_berth : groupBytes 1 .idle 0 [] = List.replicate 95 0x00 := by decide

theorem groupContent_of_retiring {g : GroupPlan} (hg : g.role = .retiring) (sq : Bool) (o : Option Content) :
    groupContent g sq o = { code := .maintenance, bytes := [] } := by
  simp only [groupContent, hg]

/-- A content that carries data passes through a live group without squelch. -/
theorem groupContent_of_data {g : GroupPlan} {x : Content} (hg : g.role ≠ .retiring) (hlive : g.live = true)
    (hm : x.code ≠ .maintenance) (hi : x.code ≠ .idle) : groupContent g false (some x) = x := by
  cases hrole : g.role with
  | retiring => exact absurd hrole hg
  | primary => simp [groupContent, hrole, hlive, hm, hi]
  | bridge => simp [groupContent, hrole, hlive, hm, hi]

/-- In every other row of the table of R85 an owned group carries MAINTENANCE. -/
theorem groupContent_of_withheld {g : GroupPlan} {sq : Bool} {o : Option Content}
    (h : g.live = false ∨ sq = true ∨ o = none ∨ ∃ x, o = some x ∧ (x.code = .maintenance ∨ x.code = .idle)) :
    groupContent g sq o = { code := .maintenance, bytes := [] } := by
  unfold groupContent
  split
  next => rfl
  next x hlive _ =>
    have hcode : x.code = .maintenance ∨ x.code = .idle := by simpa [hlive] using h
    simp [hcode]
  next => rfl

/-! ### The start of a group -/

theorem State.groupAt_carrier {s : State} {c b : Nat} {g : GroupPlan} (hg : s.groupAt c b = some g) :
    g.carrier = c := by
  have hfits := List.find?_some hg
  simp only [Bool.and_eq_true, beq_iff_eq] at hfits
  obtain ⟨⟨hcarrier, _⟩, _⟩ := hfits
  exact hcarrier

/-- A RETIRING group takes nothing: the queue of its path is as it was. -/
theorem State.startGroup_of_retiring {s : State} {g : GroupPlan} {h : Nat} {p : PathRec} (hh : g.handle = some h)
    (hp : s.path h = some p) (hrole : g.role = .retiring) :
    s.startGroup g = s.setGroupOut g.carrier g.first (groupBytes g.k .maintenance g.label []) := by
  simp only [State.startGroup, hh, hp, hrole, if_true, groupContent_of_retiring hrole]

/-- A PRIMARY or BRIDGE group takes the oldest entry it is owed, whatever it then carries. -/
theorem State.startGroup_of_taking {s : State} {g : GroupPlan} {h : Nat} {p : PathRec} {o : Option Content}
    {rest : List CarryEntry} (hh : g.handle = some h) (hp : s.path h = some p) (hrole : g.role ≠ .retiring)
    (htake : takeCarry (.group g.carrier g.first) p.carry = (o, rest)) :
    s.startGroup g = (s.setPath h { p with carry := rest }).setGroupOut g.carrier g.first
      (groupBytes g.k (groupContent g p.sq.on o).code g.label (groupContent g p.sq.on o).bytes) := by
  simp only [State.startGroup, hh, hp, hrole, if_false, htake]

/-! ### GROUP_START -/

theorem exec_groupStart_of_unowned {s : State} {c b : Nat} (hc : c < 4) (hb : b < 432) (hg : s.groupAt c b = none) :
    exec (.groupStart c b) s = .next (s.setGroupOut c b (List.replicate 95 0x00)) := by
  have hb' : ¬ Config.berths ≤ b := Nat.not_le.mpr hb
  simp only [exec, execGroupStart, Nat.not_le.mpr hc, hb', if_false, hg, groupBytes_idle_berth]

theorem exec_groupStart_of_owned {s : State} {c b : Nat} {g : GroupPlan} (hc : c < 4) (hb : b < 432)
    (hg : s.groupAt c b = some g) (hfirst : g.first = b) : exec (.groupStart c b) s = .next (s.startGroup g) := by
  have hb' : ¬ Config.berths ≤ b := Nat.not_le.mpr hb
  simp only [exec, execGroupStart, Nat.not_le.mpr hc, hb', if_false, hg, hfirst, if_true]

/-- Settles O26: an owned berth runs `startGroup`, and the rows of the table of R85 are the three lemmas on
`groupContent`. -/
theorem groupStartFillsGroup : Obligations.GroupStartFillsGroup := by
  intro s c b hc hb
  refine ⟨rfl, exec_groupStart_of_unowned hc hb, fun g h p hg hfirst hh hp => ?_⟩
  obtain rfl := State.groupAt_carrier hg
  subst hfirst
  rw [exec_groupStart_of_owned hc hb hg rfl]
  refine ⟨fun hrole => ?_, fun hrole o rest htake => ?_⟩
  · rw [State.startGroup_of_retiring hh hp hrole]
  · rw [State.startGroup_of_taking hh hp hrole htake]
    refine ⟨fun x hlive hsq ho hm hi => ?_, fun hwithheld => ?_⟩
    · rw [ho, hsq, groupContent_of_data hrole hlive hm hi]
    · rw [groupContent_of_withheld hwithheld]

end Sys2Proof.Machine

/-! ## Proofs: the label scan

The candidates of a scan (R161), and the relation of a label to the pattern with the modes it satisfies (R165). -/

namespace Sys2Proof.Machine

/-! ### The parameters of a scan (R160) -/

theorem validSize_iff {k : Nat} : validSize k = true ↔ k = 1 ∨ k = 4 ∨ k = 16 := by
  simp [validSize, or_assoc]

/-- A carrier holds a whole number of groups of each size. -/
theorem dvd_berths_of_validSize {k : Nat} (hk : validSize k = true) : k ∣ 432 := by
  obtain rfl | rfl | rfl := validSize_iff.mp hk <;> decide

theorem pos_of_validSize {k : Nat} (hk : validSize k = true) : 0 < k :=
  Nat.pos_of_dvd_of_pos (dvd_berths_of_validSize hk) (by decide)

theorem scanInRange_iff {p : ScanP} : scanInRange p = true ↔
    p.carrier < 4 ∧ validSize p.size = true ∧ p.first < 432 ∧ p.last < 432 ∧ p.size ∣ p.first ∧ p.first ≤ p.last ∧
      0 < p.step ∧ p.mode < 3 := by
  simp only [scanInRange, Bool.and_eq_true, decide_eq_true_eq, beq_iff_eq, Nat.dvd_iff_mod_eq_zero, and_assoc]

theorem stride_pos {p : ScanP} (hp : scanInRange p = true) : 0 < stride p := by
  obtain ⟨_, hsize, _, _, _, _, hstep, _⟩ := scanInRange_iff.mp hp
  exact Nat.mul_pos hstep (pos_of_validSize hsize)

/-! ### The candidates (R161) -/

theorem stride_dvd_lastCandidate_sub_first (p : ScanP) : stride p ∣ lastCandidate p - p.first := by
  simp [lastCandidate]

theorem first_le_lastCandidate (p : ScanP) : p.first ≤ lastCandidate p := Nat.le_add_right _ _

theorem lastCandidate_le_last {p : ScanP} (h : p.first ≤ p.last) : lastCandidate p ≤ p.last := by
  have hdiv := Nat.div_mul_le_self (p.last - p.first) (stride p)
  unfold lastCandidate
  omega

theorem last_lt_lastCandidate_add_stride {p : ScanP} (hd : 0 < stride p) : p.last < lastCandidate p + stride p := by
  have hdiv := Nat.lt_div_mul_add hd (a := p.last - p.first)
  unfold lastCandidate
  omega

theorem size_dvd_lastCandidate {p : ScanP} (h : p.size ∣ p.first) : p.size ∣ lastCandidate p :=
  Nat.dvd_add h ((Nat.dvd_mul_left _ _).mul_left _)

/-- There are at most 432 candidates, because two of them are at least one berth apart. -/
theorem candidate_steps_lt {p : ScanP} (h : p.last < 432) : (p.last - p.first) / stride p < 432 :=
  calc (p.last - p.first) / stride p ≤ p.last - p.first := Nat.div_le_self _ _
    _ ≤ p.last := Nat.sub_le _ _
    _ < 432 := h

/-- The group of the last candidate ends within the carrier, because its start and the number of berths are multiples of
the size. -/
theorem lastCandidate_add_size_le {p : ScanP} (hp : scanInRange p = true) : lastCandidate p + p.size ≤ 432 := by
  obtain ⟨_, hsize, _, hlast, hfirst, hle, _, _⟩ := scanInRange_iff.mp hp
  have hlt : lastCandidate p < 432 := (lastCandidate_le_last hle).trans_lt hlast
  exact Nat.le_of_lt_add_of_dvd (Nat.add_lt_add_right hlt _)
    (Nat.dvd_add (size_dvd_lastCandidate hfirst) (dvd_refl _)) (dvd_berths_of_validSize hsize)

theorem nextCandidate_eq_none_iff {p : ScanP} {g : Nat} : nextCandidate p g = none ↔ p.last < g + stride p := by
  simp [nextCandidate]

/-- Two members of the sequence less than a stride apart do not lie in falling order. -/
theorem candidate_le_of_lt_add_stride {p : ScanP} {a b : Nat} (ha : p.first ≤ a) (hb : p.first ≤ b)
    (hda : stride p ∣ a - p.first) (hdb : stride p ∣ b - p.first) (hlt : a < b + stride p) : a ≤ b := by
  have hsub : a - p.first ≤ b - p.first := Nat.le_of_lt_add_of_dvd (by omega) hda hdb
  omega

theorem nextCandidate_eq_none_iff_last {p : ScanP} {g : Nat} (hd : 0 < stride p) (hfirst : p.first ≤ g)
    (hlast : g ≤ p.last) (hg : stride p ∣ g - p.first) : nextCandidate p g = none ↔ g = lastCandidate p := by
  have hupper := last_lt_lastCandidate_add_stride hd
  rw [nextCandidate_eq_none_iff]
  constructor
  · intro hnone
    have hlower := lastCandidate_le_last (hfirst.trans hlast)
    exact le_antisymm
      (candidate_le_of_lt_add_stride hfirst (first_le_lastCandidate p) hg (stride_dvd_lastCandidate_sub_first p)
        (hlast.trans_lt hupper))
      (candidate_le_of_lt_add_stride (first_le_lastCandidate p) hfirst (stride_dvd_lastCandidate_sub_first p) hg
        (hlower.trans_lt hnone))
  · rintro rfl
    exact hupper

/-! ### The relation of a label to the pattern (R165) -/

@[simp] theorem relation_nil_left (l : Label) : relation [] l = .equal := rfl

@[simp] theorem relation_nil_right (p : Label) : relation p [] = .equal := by cases p <;> rfl

theorem relation_cons_of_equal {x c : Char7} (ps cs : Label) (h : x = 0x7F ∨ x = c) :
    relation (x :: ps) (c :: cs) = relation ps cs := by
  rw [relation, if_pos h]

theorem relation_cons_of_lt {x c : Char7} (ps cs : Label) (hx : x ≠ 0x7F) (h : c < x) :
    relation (x :: ps) (c :: cs) = .less := by
  rw [relation, if_neg (not_or.mpr ⟨hx, (BitVec.ne_of_lt h).symm⟩), if_pos h]

theorem relation_cons_of_gt {x c : Char7} (ps cs : Label) (hx : x ≠ 0x7F) (h : x < c) :
    relation (x :: ps) (c :: cs) = .greater := by
  rw [relation, if_neg (not_or.mpr ⟨hx, BitVec.ne_of_lt h⟩), if_neg (BitVec.lt_asymm h)]

theorem relation_cons_ne_equal {x c : Char7} (ps cs : Label) (h : ¬ (x = 0x7F ∨ x = c)) :
    relation (x :: ps) (c :: cs) ≠ .equal := by
  rw [relation, if_neg h]
  split <;> exact Relation.noConfusion

theorem relation_eq_equal_iff {p l : Label} (hlen : p.length = l.length) :
    relation p l = .equal ↔ ∀ i, i < p.length → p.getD i 0 = 0x7F ∨ p.getD i 0 = l.getD i 0 := by
  induction p generalizing l with
  | nil => simp
  | cons x ps ih =>
    obtain _ | ⟨c, cs⟩ := l
    · cases hlen
    · have htail := ih (Nat.succ.inj hlen)
      rw [List.length_cons, Nat.forall_lt_succ_left]
      simp only [List.getD_cons_zero, List.getD_cons_succ, ← htail]
      by_cases hhead : x = 0x7F ∨ x = c
      · simp only [relation_cons_of_equal ps cs hhead, hhead, true_and]
      · simp only [relation_cons_ne_equal ps cs hhead, hhead, false_and]

/-- The positions before the first unequal one do not matter. -/
theorem relation_drop_of_equal_before {n : Nat} {p l : Label}
    (h : ∀ j, j < n → p.getD j 0 = 0x7F ∨ p.getD j 0 = l.getD j 0) :
    relation (p.drop n) (l.drop n) = relation p l := by
  induction n generalizing p l with
  | zero => rfl
  | succ n ih =>
    match p, l with
    | [], _ => simp
    | _ :: _, [] => simp
    | x :: ps, c :: cs =>
      obtain ⟨hhead, htail⟩ := Nat.forall_lt_succ_left.mp h
      exact (ih htail).trans (relation_cons_of_equal ps cs hhead).symm

theorem drop_eq_getD_cons {l : Label} {i : Nat} (h : i < l.length) : l.drop i = l.getD i 0 :: l.drop (i + 1) := by
  rw [List.drop_eq_getElem_cons h, List.getD_eq_getElem l 0 h]

/-- The first unequal position decides. -/
theorem relation_of_first_unequal {p l : Label} {i : Nat} (hlen : p.length = l.length) (hi : i < p.length)
    (hbefore : ∀ j, j < i → p.getD j 0 = 0x7F ∨ p.getD j 0 = l.getD j 0) (hwild : p.getD i 0 ≠ 0x7F) :
    (l.getD i 0 < p.getD i 0 → relation p l = .less) ∧ (p.getD i 0 < l.getD i 0 → relation p l = .greater) := by
  rw [← relation_drop_of_equal_before hbefore, drop_eq_getD_cons hi, drop_eq_getD_cons (l := l) (hlen ▸ hi)]
  exact ⟨relation_cons_of_lt _ _ hwild, relation_cons_of_gt _ _ hwild⟩

/-! ### The modes (R165) -/

theorem satisfies_equal (r : Relation) : satisfies 0 r = decide (r = .equal) := by cases r <;> rfl

theorem satisfies_atMost (r : Relation) : satisfies 1 r = decide (r = .equal ∨ r = .less) := by cases r <;> rfl

theorem satisfies_atLeast (r : Relation) : satisfies 2 r = decide (r = .equal ∨ r = .greater) := by cases r <;> rfl

/-- Settles O20: the last candidate lies less than a stride before the end berth, which singles it out in the sequence;
equal leading positions drop out of the relation, and the head of what is left decides it. -/
theorem scanCandidatesAndRelation : Obligations.ScanCandidatesAndRelation := by
  refine ⟨fun p hp => ?_, fun p l hlen => ?_⟩
  · obtain ⟨_, _, _, hlast, hfirst, hle, _, _⟩ := scanInRange_iff.mp hp
    have hd := stride_pos hp
    exact ⟨⟨_, candidate_steps_lt hlast, rfl⟩, lastCandidate_le_last hle, last_lt_lastCandidate_add_stride hd,
      Nat.mod_eq_zero_of_dvd (size_dvd_lastCandidate hfirst), lastCandidate_add_size_le hp,
      fun g hg hgl hmod => nextCandidate_eq_none_iff_last hd hg hgl (Nat.dvd_of_mod_eq_zero hmod)⟩
  · exact ⟨relation_eq_equal_iff hlen, fun i hi hbefore hwild => relation_of_first_unequal hlen hi hbefore hwild,
      satisfies_equal _, satisfies_atMost _, satisfies_atLeast _⟩

end Sys2Proof.Machine

/-! ## Proofs: conditions and reports

The host's commands on the condition monitor: READ CONDITIONS (R175), SET REPORT (R176), QUIET and RESUME (R177), and
DEFAULTS (R178). -/

namespace Sys2Proof

/-- Writing a value leaves the listed value of every other number. -/
theorem Sparse.find_put_ne {α : Type} [DecidableEq α] (d : α) (m : Sparse α) {k j : Nat} (v : α) (h : j ≠ k) :
    Sparse.find (Sparse.put d m k v) j = Sparse.find m j := by
  unfold Sparse.put
  split
  · exact Sparse.find_erase_ne m h
  · exact Sparse.find_insert_ne m v h

end Sys2Proof

namespace Sys2Proof.Machine

/-! ### A command that answers in an update of the condition monitor -/

/-- At a ready port a command that only updates CND and answers does so in the state as it is. -/
theorem State.hostCommand_eq_setCnd_answer {s : State} (hs : s.ready) {k : HostCmd} {x : Cnd} {l : List Byte}
    (hserve : ∀ c, (s.setCmd c).serve k = ((s.setCmd c).setCnd x).answer l) :
    s.hostCommand k = (s.setCnd x).answer l := by
  obtain ⟨c, hcommand, hstage⟩ := State.hostCommand_of_ready hs k
  rw [hcommand, hserve c]
  exact State.answer_setCmd (s := s.setCnd x) hstage l

/-! ### READ CONDITIONS (R175) -/

theorem exec_readConditions_of_ready {s : State} (hs : s.ready) :
    exec .readConditions s = .next ((s.setCnd { s.cnd with queue := s.cnd.queue.drop 8 }).answer
      ([0, BitVec.ofNat 8 (min 8 s.cnd.queue.length)] ++ (s.cnd.queue.take 8).flatMap CondRec.out)) := by
  rw [← List.length_take]
  exact congrArg Host.Outcome.next (State.hostCommand_eq_setCnd_answer hs fun _ => rfl)

/-! ### Codes of kinds and report types (R191) -/

theorem kindOf_condCode (k : CondKind) : kindOf (condCode k) = some k := by cases k <;> rfl

theorem condCode_injective : Function.Injective condCode := fun j k h =>
  Option.some_injective _ (by rw [← kindOf_condCode j, h, kindOf_condCode k])

theorem exists_typeOf_of_lt {n : Nat} (h : n < 4) : ∃ t, typeOf n = some t := by
  interval_cases n <;> exact ⟨_, rfl⟩

theorem typeOf_eq_none_of_le {n : Nat} (h : 4 ≤ n) : typeOf n = none := by
  obtain ⟨m, rfl⟩ := Nat.exists_eq_add_of_le' h
  rfl

/-- The codes 11 and 12 are those of the two events (R173). -/
theorem condIsEvent_of_kindOf {n : Nat} {k : CondKind} (hk : kindOf n = some k) (hn : n = 11 ∨ n = 12) :
    condIsEvent k = true := by
  obtain rfl | rfl := hn <;> cases hk <;> rfl

/-! ### The settings of a kind (R176) -/

/-- CND with a new setting of one kind. -/
def Cnd.withSetting (c : Cnd) (k : CondKind) (new : Setting) : Cnd :=
  { c with settings := Sparse.put (defaultSetting k) c.settings (condCode k) new }

theorem Cnd.setting_withSetting_self {c : Cnd} (hc : Sparse.rising c.settings = true) (k : CondKind) (new : Setting) :
    (c.withSetting k new).setting k = new :=
  Sparse.get_put_self _ _ _ _ hc

theorem Cnd.setting_withSetting_ne (c : Cnd) {j k : CondKind} (new : Setting) (h : j ≠ k) :
    (c.withSetting k new).setting j = c.setting j :=
  congrArg (Option.getD · (defaultSetting j)) (Sparse.find_put_ne _ _ _ (condCode_injective.ne h))

/-- With no setting listed, every kind has the default of R176. -/
theorem Cnd.setting_of_settings_nil {c : Cnd} (hc : c.settings = []) (k : CondKind) :
    c.setting k = defaultSetting k := by
  rw [Cnd.setting, hc]
  rfl

/-! ### SET REPORT (R176) -/

/-- A soak, a period, or the report type of an event, is out of its range. -/
def ReportP.outOfRange (p : ReportP) (k : CondKind) : Prop :=
  7 < p.raiseM ∨ 7 < p.clearM ∨ 7 < p.repeatM ∨ 3 < p.raiseE ∨ 3 < p.clearE ∨ 3 < p.repeatE ∨
    (condIsEvent k = true ∧ 1 < p.type)

/-- The setting that SET REPORT gives a kind: an event takes the report type alone. -/
def ReportP.setting (p : ReportP) (k : CondKind) (t : ReportType) : Setting :=
  if condIsEvent k then { defaultSetting k with type := t }
  else { type := t, raiseM := p.raiseM, raiseE := p.raiseE, clearM := p.clearM, clearE := p.clearE,
         repeatM := p.repeatM, repeatE := p.repeatE }

theorem ReportP.setting_type (p : ReportP) (k : CondKind) (t : ReportType) : (ReportP.setting p k t).type = t := by
  unfold ReportP.setting
  split <;> rfl

theorem ReportP.setting_of_state {k : CondKind} (hk : condIsEvent k = false) (p : ReportP) (t : ReportType) :
    ReportP.setting p k t =
      { type := t, raiseM := p.raiseM, raiseE := p.raiseE, clearM := p.clearM, clearE := p.clearE,
        repeatM := p.repeatM, repeatE := p.repeatE } := by
  simp [ReportP.setting, hk]

theorem State.serveSetReport_of_inRange {p : ReportP} {k : CondKind} {t : ReportType} (hk : kindOf p.kind = some k)
    (ht : typeOf p.type = some t) (hp : ¬ ReportP.outOfRange p k) (s : State) :
    s.serveSetReport p = (s.setCnd (s.cnd.withSetting k (ReportP.setting p k t))).answer [0] := by
  simp only [State.serveSetReport, hk, ht]
  exact if_neg hp

theorem State.serveSetReport_of_outOfRange {p : ReportP}
    (hp : ∀ k t, kindOf p.kind = some k → typeOf p.type = some t → ReportP.outOfRange p k) (s : State) :
    s.serveSetReport p = s.answer [1] := by
  unfold State.serveSetReport
  split
  next k t hk ht => exact if_pos (hp k t hk ht)
  next => rfl

theorem exec_setReport_of_inRange {s : State} (hs : s.ready) {p : ReportP} {k : CondKind} {t : ReportType}
    (hk : kindOf p.kind = some k) (ht : typeOf p.type = some t) (hp : ¬ ReportP.outOfRange p k) :
    exec (.setReport p) s = .next ((s.setCnd (s.cnd.withSetting k (ReportP.setting p k t))).answer [0]) :=
  congrArg Host.Outcome.next (State.hostCommand_eq_setCnd_answer hs fun _ => State.serveSetReport_of_inRange hk ht hp _)

theorem exec_setReport_of_outOfRange {s : State} (hs : s.ready) {p : ReportP}
    (hp : ∀ k t, kindOf p.kind = some k → typeOf p.type = some t → ReportP.outOfRange p k) :
    exec (.setReport p) s = .next (s.answer [1]) :=
  congrArg Host.Outcome.next (State.hostCommand_eq_setCnd_answer hs fun _ => State.serveSetReport_of_outOfRange hp _)

/-! ### QUIET and RESUME (R177) -/

theorem exec_quiet_of_ready {s : State} (hs : s.ready) :
    exec .quiet s = .next ((s.setCnd { s.cnd with quiet := true }).answer [0]) :=
  congrArg Host.Outcome.next (State.hostCommand_eq_setCnd_answer hs fun _ => rfl)

/-- Offer records to the condition queue, one after another. -/
def Cnd.offerAll (c : Cnd) (l : List CondRec) : Cnd := l.foldl Cnd.offer c

theorem Cnd.offer_of_room {c : Cnd} (hq : c.quiet = false) (hl : c.queue.length < 64) (r : CondRec) :
    c.offer r = { c with queue := c.queue ++ [r] } := by
  simp [Cnd.offer, hq, hl]

/-- Offering records changes the queue alone. -/
theorem Cnd.offerAll_rest (c : Cnd) (l : List CondRec) :
    (c.offerAll l).insts = c.insts ∧ (c.offerAll l).settings = c.settings ∧ (c.offerAll l).quiet = c.quiet := by
  induction l generalizing c with
  | nil => exact ⟨rfl, rfl, rfl⟩
  | cons r rs ih =>
    obtain ⟨hinsts, hsettings, hquiet⟩ := c.offer_rest r
    obtain ⟨hinsts', hsettings', hquiet'⟩ := ih (c.offer r)
    exact ⟨hinsts'.trans hinsts, hsettings'.trans hsettings, hquiet'.trans hquiet⟩

theorem Cnd.offerAll_of_room {c : Cnd} (hq : c.quiet = false) {l : List CondRec}
    (hl : c.queue.length + l.length ≤ 64) : c.offerAll l = { c with queue := c.queue ++ l } := by
  induction l generalizing c with
  | nil => simp [Cnd.offerAll]
  | cons r rs ih =>
    rw [List.length_cons] at hl
    have hhead : c.offer r = { c with queue := c.queue ++ [r] } := Cnd.offer_of_room hq (by omega) r
    have htail := ih (c := { c with queue := c.queue ++ [r] }) hq (by simp; omega)
    calc c.offerAll (r :: rs) = (c.offer r).offerAll rs := rfl
      _ = { c with queue := c.queue ++ (r :: rs) } := by rw [hhead, htail, List.append_assoc]; rfl

/-- The conditions that RESUME reports, in the order of R172: declared, and of a kind that is not OFF. -/
def Cnd.standing (c : Cnd) : Sparse Inst :=
  c.insts.filter (fun e => e.2.declared && !((c.setting e.2.kind).type == .off))

/-- RESUME starts from an empty queue and offers a record of each condition that stands. -/
theorem Cnd.resume_eq_offerAll (c : Cnd) (mf : Nat) :
    c.resume mf = Cnd.offerAll { c with quiet := false, queue := [] }
      (c.standing.map fun e => e.2.record .standing mf) := by
  rw [Cnd.offerAll, List.foldl_map, Cnd.standing, List.foldl_filter]
  rfl

theorem Cnd.resume_queue {c : Cnd} (hc : c.standing.length ≤ 64) (mf : Nat) :
    (c.resume mf).queue = c.standing.map fun e => e.2.record .standing mf := by
  rw [Cnd.resume_eq_offerAll, Cnd.offerAll_of_room rfl (by simpa using hc)]
  rfl

theorem Cnd.resume_rest (c : Cnd) (mf : Nat) :
    (c.resume mf).insts = c.insts ∧ (c.resume mf).settings = c.settings ∧ (c.resume mf).quiet = false := by
  rw [Cnd.resume_eq_offerAll]
  exact Cnd.offerAll_rest _ _

theorem exec_resume_of_ready {s : State} (hs : s.ready) :
    exec .resume s = .next ((s.setCnd (s.cnd.resume s.ftm.mfCount)).answer [0]) :=
  congrArg Host.Outcome.next (State.hostCommand_eq_setCnd_answer hs fun _ => rfl)

/-! ### DEFAULTS (R178) -/

theorem exec_defaults_of_ready {s : State} (hs : s.ready) :
    exec .defaults s = .next ((s.setCnd { s.cnd with settings := [], queue := [], quiet := false }).answer [0]) :=
  congrArg Host.Outcome.next (State.hostCommand_eq_setCnd_answer hs fun _ => rfl)

/-- Settles O41: with no setting listed, `defaultSetting` is the setting of every kind. -/
theorem defaultsRestoresSettings : Obligations.DefaultsRestoresSettings := by
  intro s hs
  refine ⟨s.setCnd { s.cnd with settings := [], queue := [], quiet := false }, exec_defaults_of_ready hs,
    rfl, rfl, rfl, rfl, fun k => ?_⟩
  rw [Cnd.setting_of_settings_nil (by rfl)]
  exact ⟨fun hevent => by simp [defaultSetting, hevent], fun hstate => by simp [defaultSetting, hstate]⟩

/-- Settles O40: one lemma per command; in SET REPORT a parameter out of range is either no code of a kind or type, or
one of `ReportP.outOfRange`. -/
theorem conditionCommands : Obligations.ConditionCommands := by
  intro s hs
  refine ⟨exec_readConditions_of_ready hs, ?accepted, ?refused, exec_quiet_of_ready hs, exec_defaults_of_ready hs,
    ?resumed⟩
  case accepted =>
    intro p k hk htype hrm hcm hpm hre hce hpe hevent hrising
    obtain ⟨t, ht⟩ := exists_typeOf_of_lt htype
    have hrange : ¬ ReportP.outOfRange p k := by
      unfold ReportP.outOfRange
      grind
    have hself := Cnd.setting_withSetting_self hrising k (ReportP.setting p k t)
    refine ⟨s.setCnd (s.cnd.withSetting k (ReportP.setting p k t)), exec_setReport_of_inRange hs hk ht hrange, rfl,
      ?_, fun hstate => ?_, fun j hj => Cnd.setting_withSetting_ne _ _ hj, rfl, rfl, rfl⟩
    · rw [State.setCnd_cnd, hself, ReportP.setting_type, ht]
    · rw [State.setCnd_cnd, hself, ReportP.setting_of_state hstate]
      exact ⟨rfl, rfl, rfl, rfl, rfl, rfl⟩
  case refused =>
    intro p hp
    refine exec_setReport_of_outOfRange hs fun k t hk ht => ?_
    have hkind : kindOf p.kind ≠ none := by simp [hk]
    have htype : ¬ 4 ≤ p.type := fun hle => by simp [typeOf_eq_none_of_le hle] at ht
    have hevent := condIsEvent_of_kindOf hk
    unfold ReportP.outOfRange
    tauto
  case resumed =>
    obtain ⟨hinsts, hsettings, hquiet⟩ := s.cnd.resume_rest s.ftm.mfCount
    exact ⟨s.setCnd (s.cnd.resume s.ftm.mfCount), exec_resume_of_ready hs, rfl, hquiet, hinsts, hsettings,
      fun hroom => Cnd.resume_queue hroom _⟩

end Sys2Proof.Machine

/-! ## Proofs: the command port

The interrupt line and the status byte (R180, R185): the fields of the byte are read at their bits, and REQ is
given for each phase. -/

namespace Sys2Proof.Machine

/-! ### The interrupt line (R185) -/

theorem State.intLine_eq_true_iff (s : State) :
    s.intLine = true ↔
      s.cmd.waiting = true ∨ s.ptb.completions ≠ [] ∨ (s.cnd.queue ≠ [] ∧ s.cnd.quiet = false) := by
  simp [State.intLine, or_assoc]

theorem State.intLine_reset : State.reset.intLine = false := rfl

/-! ### REQ (R180) -/

theorem State.req_of_command {s : State} (h : s.cmd.phase = .command) :
    s.req = decide (s.cmd.inFifo.length < 16) := by
  simp [State.req, h]

theorem State.req_of_result {s : State} (h : s.cmd.phase = .result) : s.req = !s.cmd.outFifo.isEmpty := by
  simp [State.req, h]

theorem State.req_of_execution {s : State} (h : s.cmd.phase = .execution) : s.req = false := by
  simp [State.req, h]

/-! ### The fields of the status byte (R180, section 12.2) -/

/-- The four one-bit fields, packed as the status byte packs them, are read back at their own bits. -/
theorem getLsbD_statusFields (req result : Bool) (mode : BitVec 2) (int started : Bool) :
    let b := BitVec.ofBool req ++ BitVec.ofBool result ++ mode ++ BitVec.ofBool int ++ BitVec.ofBool started ++ 0#2
    b.getLsbD 2 = started ∧ b.getLsbD 3 = int ∧ b.getLsbD 6 = result ∧ b.getLsbD 7 = req := by
  simp only [BitVec.getLsbD_append]
  simp

theorem State.statusByte_bits (s : State) :
    s.statusByte.getLsbD 2 = s.cmd.started ∧ s.statusByte.getLsbD 3 = s.intLine ∧
    s.statusByte.getLsbD 6 = (s.cmd.phase == .result) ∧ s.statusByte.getLsbD 7 = s.req :=
  getLsbD_statusFields _ _ _ _ _

/-- Settles O45: the line by its three causes, the fields of the byte at their bits, and bit 7 as REQ in each phase. -/
theorem interruptLineAndStatus : Obligations.InterruptLineAndStatus := by
  intro s
  obtain ⟨hstarted, hint, hresult, hreq⟩ := s.statusByte_bits
  refine ⟨s.intLine_eq_true_iff, hint, hstarted, ?_, fun hcommand => hreq.trans (State.req_of_command hcommand),
    fun hphase => hreq.trans (State.req_of_result hphase),
    fun hexecution => hreq.trans (State.req_of_execution hexecution), State.intLine_reset⟩
  rw [hresult, beq_iff_eq]

end Sys2Proof.Machine

/-! ## Proofs: what every step keeps

Two relations between states. `Keeps s t` says that each invariant of Safety.lean passes from `s` to `t`, and that the
records of `t` have in `s` the fields that ADD gave them; it is transitive, so a function keeps the invariants where the
operations that it calls do. `Reworks H s t` says that `t` is `s` after changes of records whose handles satisfy `H`, of
the berth owner maps and of HWY's own fields; it is what claims, moves and cells do, and it leaves the other blocks. -/

namespace Sys2Proof.Machine

/-! ### Changes of one record -/

/-- The fields that ADD gives a record for good (R37). -/
def PathRec.SameIdentity (p q : PathRec) : Prop :=
  q.tag = p.tag ∧ q.role = p.role ∧ q.k = p.k ∧ q.source = p.source ∧ q.remote = p.remote ∧ q.label = p.label ∧
  q.sqSet = p.sqSet

theorem PathRec.SameIdentity.refl (p : PathRec) : p.SameIdentity p := ⟨rfl, rfl, rfl, rfl, rfl, rfl, rfl⟩

theorem PathRec.SameIdentity.trans {p q r : PathRec} (h : p.SameIdentity q) (h' : q.SameIdentity r) :
    p.SameIdentity r := by
  unfold PathRec.SameIdentity at *
  grind

/-- A change of a record that keeps its identity, its completion fields and its ranges, and that does not bring it onto
the highway while the station is silent. -/
structure PathRec.Kept (silent : Bool) (p q : PathRec) : Prop where
  ident : p.SameIdentity q
  pending : q.completionPending = p.completionPending
  last : q.lastCompletion = p.lastCompletion
  ok : p.Ok → q.Ok
  off : silent = true → p.offHighway = true → q.offHighway = true

theorem PathRec.Kept.refl (b : Bool) (p : PathRec) : p.Kept b p := ⟨.refl p, rfl, rfl, id, fun _ => id⟩

theorem PathRec.Kept.trans {b : Bool} {p q r : PathRec} (h : p.Kept b q) (h' : q.Kept b r) : p.Kept b r :=
  ⟨h.ident.trans h'.ident, h'.pending.trans h.pending, h'.last.trans h.last, h'.ok ∘ h.ok,
    fun hb => h'.off hb ∘ h.off hb⟩

/-- Whether a record takes part on the highway is a matter of its role and its state. -/
theorem PathRec.offHighway_congr {p q : PathRec} (hr : q.role = p.role) (hs : q.state = p.state) :
    q.offHighway = p.offHighway := by
  simp only [PathRec.offHighway, hr, hs]

/-! ### The relation `Keeps` -/

/-- Every record of `t` is one of `s`, with the same identity. -/
def State.KeepsIdentity (s t : State) : Prop :=
  ∀ h q, t.path h = some q → ∃ p, s.path h = some p ∧ p.SameIdentity q

theorem State.KeepsIdentity.of_path_eq {s t : State} (h : ∀ g, t.path g = s.path g) : s.KeepsIdentity t :=
  fun g q hq => ⟨q, (h g).symm.trans hq, .refl q⟩

theorem State.KeepsIdentity.trans {s t u : State} (h : s.KeepsIdentity t) (h' : t.KeepsIdentity u) :
    s.KeepsIdentity u := by
  intro g r hr
  obtain ⟨q, hq, hqr⟩ := h' g r hr
  obtain ⟨p, hp, hpq⟩ := h g q hq
  exact ⟨p, hp, hpq.trans hqr⟩

/-- Each invariant passes from one state to another. -/
structure State.KeepsInvariants (s t : State) : Prop where
  bounded : s.Bounded → t.Bounded
  port : s.PortOk → t.PortOk
  tables : s.TablesOk → t.TablesOk
  station : s.StationOk → t.StationOk
  mute : s.TablesOk → s.StationOk → s.MuteOk → t.MuteOk
  completions : s.TablesOk → s.CompletionsOk → t.CompletionsOk
  paths : s.TablesOk → s.PathsOk → t.PathsOk

theorem State.KeepsInvariants.refl (s : State) : s.KeepsInvariants s :=
  ⟨id, id, id, id, fun _ _ => id, fun _ => id, fun _ => id⟩

theorem State.KeepsInvariants.trans {s t u : State} (h : s.KeepsInvariants t) (h' : t.KeepsInvariants u) :
    s.KeepsInvariants u where
  bounded := h'.bounded ∘ h.bounded
  port := h'.port ∘ h.port
  tables := h'.tables ∘ h.tables
  station := h'.station ∘ h.station
  mute hT hs hm := h'.mute (h.tables hT) (h.station hs) (h.mute hT hs hm)
  completions hT hc := h'.completions (h.tables hT) (h.completions hT hc)
  paths hT hp := h'.paths (h.tables hT) (h.paths hT hp)

/-- Each invariant passes from one state to another, and no record is new or has another identity. -/
structure State.Keeps (s t : State) : Prop extends s.KeepsInvariants t where
  identity : s.TablesOk → s.KeepsIdentity t

theorem State.Keeps.refl (s : State) : s.Keeps s := ⟨.refl s, fun _ => .of_path_eq fun _ => rfl⟩

theorem State.Keeps.trans {s t u : State} (h : s.Keeps t) (h' : t.Keeps u) : s.Keeps u :=
  ⟨h.toKeepsInvariants.trans h'.toKeepsInvariants, fun hT => (h.identity hT).trans (h'.identity (h.tables hT))⟩

/-- Taking the members of a list one after another keeps what taking each of them keeps. -/
theorem State.Keeps.foldl {α : Type} {f : State → α → State} (l : List α) (hf : ∀ u : State, ∀ a ∈ l, u.Keeps (f u a))
    (s : State) : s.Keeps (l.foldl f s) := by
  induction l generalizing s with
  | nil => exact .refl s
  | cons a l ih =>
    exact (hf s a (by simp)).trans (ih (fun u b hb => hf u b (List.mem_cons_of_mem _ hb)) (f s a))

theorem State.Keeps.forPaths {f : Nat → State → State} (hf : ∀ h (u : State), u.Keeps (f h u)) (s : State) :
    s.Keeps (s.forPaths f) :=
  .foldl _ (fun u h _ => hf h u) s

theorem State.Keeps.upTo {f : Nat → State → State} (n : Nat) (hf : ∀ i (u : State), i < n → u.Keeps (f i u)) (s : State) :
    s.Keeps (s.upTo n f) :=
  .foldl _ (fun u i hi => hf i u (List.mem_range.mp hi)) s

/-! ### Single updates -/

theorem State.Keeps.setPath {s : State} {h : Nat} {p q : PathRec} (hp : s.path h = some p) (hk : p.Kept s.silent q) :
    s.Keeps (s.setPath h q) := by
  have hself : (s.setPath h q).path h = some q := s.path_setPath_self h q
  have hother (g : Nat) (hg : g ≠ h) : (s.setPath h q).path g = s.path g := s.path_setPath_ne q hg
  have hpath (g : Nat) (r : PathRec) (hr : (s.setPath h q).path g = some r) :
      ∃ r', s.path g = some r' ∧ r'.Kept s.silent r := by
    by_cases hg : g = h
    · subst hg
      rw [hself, Option.some.injEq] at hr
      exact ⟨p, hp, hr ▸ hk⟩
    · exact ⟨r, (hother g hg) ▸ hr, .refl _ _⟩
  refine ⟨⟨id, id, ?_, id, ?_, ?_, ?_⟩, ?_⟩
  · rintro ⟨hpaths, hrest⟩
    exact ⟨Sparse.rising_insert _ _ _ hpaths, hrest⟩
  · intro _ _ hm hs g r hr
    obtain ⟨r', hr', hk'⟩ := hpath g r hr
    exact hk'.off hs (hm hs g r' hr')
  · rintro _ ⟨hnodup, hlisted, hpending⟩
    refine ⟨hnodup, fun e he => ?_, fun g r hr => ?_⟩
    · obtain ⟨r, hr, hlast⟩ := hlisted e he
      by_cases hg : e.1 = h
      · rw [hg, hp, Option.some.injEq] at hr
        subst hr
        exact ⟨q, hg ▸ hself, hk.last.trans hlast⟩
      · exact ⟨r, (hother _ hg).trans hr, hlast⟩
    · obtain ⟨r', hr', hk'⟩ := hpath g r hr
      rw [hk'.pending]
      exact hpending g r' hr'
  · intro _ hok g r hr
    obtain ⟨r', hr', hk'⟩ := hpath g r hr
    exact hk'.ok (hok g r' hr')
  · intro _ g r hr
    obtain ⟨r', hr', hk'⟩ := hpath g r hr
    exact ⟨r', hr', hk'.ident⟩

theorem State.Keeps.modPath {s : State} {h : Nat} {f : PathRec → PathRec}
    (hf : ∀ p, s.path h = some p → p.Kept s.silent (f p)) : s.Keeps (s.modPath h f) := by
  rcases s.modPath_cases h f with ⟨_, he⟩ | ⟨p, hp, he⟩ <;> rw [he]
  · exact .refl s
  · exact .setPath hp (hf p hp)

theorem State.Keeps.mapPaths {s : State} {f : Nat → PathRec → PathRec}
    (hf : ∀ h p, s.path h = some p → p.Kept s.silent (f h p)) : s.Keeps (s.mapPaths f) := by
  have hpath (g : Nat) (r : PathRec) (hr : (s.mapPaths f).path g = some r) :
      ∃ r', s.path g = some r' ∧ r'.Kept s.silent r := by
    rw [s.path_mapPaths, Option.map_eq_some_iff] at hr
    obtain ⟨p, hp, rfl⟩ := hr
    exact ⟨p, hp, hf g p hp⟩
  refine ⟨⟨id, id, ?_, id, ?_, ?_, ?_⟩, ?_⟩
  · rintro ⟨hpaths, hrest⟩
    exact ⟨Sparse.rising_mapVals _ _ hpaths, hrest⟩
  · intro _ _ hm hs g r hr
    obtain ⟨r', hr', hk'⟩ := hpath g r hr
    exact hk'.off hs (hm hs g r' hr')
  · rintro _ ⟨hnodup, hlisted, hpending⟩
    refine ⟨hnodup, fun e he => ?_, fun g r hr => ?_⟩
    · obtain ⟨r, hr, hlast⟩ := hlisted e he
      exact ⟨f e.1 r, by rw [s.path_mapPaths, hr]; rfl, (hf _ r hr).last.trans hlast⟩
    · obtain ⟨r', hr', hk'⟩ := hpath g r hr
      rw [hk'.pending]
      exact hpending g r' hr'
  · intro _ hok g r hr
    obtain ⟨r', hr', hk'⟩ := hpath g r hr
    exact hk'.ok (hok g r' hr')
  · intro _ g r hr
    obtain ⟨r', hr', hk'⟩ := hpath g r hr
    exact ⟨r', hr', hk'.ident⟩

/-! ### A post (R56) -/

theorem replaceCompletion_map_fst (h : Nat) (c : Completion) (l : List (Nat × Completion)) :
    (replaceCompletion h c l).map (·.1) = l.map (·.1) := by
  unfold replaceCompletion
  rw [List.map_map]
  refine List.map_congr_left fun e _ => ?_
  by_cases he : e.1 = h <;> simp [he]

theorem PathRec.posted_ok {p : PathRec} (hp : p.Ok) (b : Bool) (c : Completion) : (p.posted b c).Ok := by
  obtain ⟨hk, hfil, hfilOk, hcarry, hsup, hrest⟩ := hp
  unfold PathRec.posted
  split
  · exact ⟨hk, hfil, hfilOk, hcarry, by simp only [satInc_eq_min]; omega, hrest⟩
  · exact ⟨hk, hfil, hfilOk, hcarry, hsup, hrest⟩

theorem PathRec.posted_identity (p : PathRec) (b : Bool) (c : Completion) : p.SameIdentity (p.posted b c) := by
  unfold PathRec.posted
  split <;> exact .refl p

theorem PathRec.posted_offHighway (p : PathRec) (b : Bool) (c : Completion) :
    (p.posted b c).offHighway = p.offHighway := by
  unfold PathRec.posted
  split <;> rfl

theorem State.post_listed {s : State} {h : Nat} {p : PathRec} (hp : s.path h = some p) (c : Completion) (g : Nat) :
    (s.post h c).listed g = (s.listed g || g == h) := by
  have hmem (u : State) : u.listed g = decide (g ∈ u.ptb.completions.map (·.1)) := by
    rw [Bool.eq_iff_iff, ← not_iff_not, Bool.not_eq_true, State.listed_eq_false_iff, decide_eq_true_iff]
  rcases s.post_cases h c with ⟨hnone, _⟩ | ⟨_, _, _, _, hcompl, _⟩
  · simp [hp] at hnone
  · rw [hmem, hmem, hcompl]
    cases hl : s.listed h with
    | true =>
      simp only [if_true, replaceCompletion_map_fst]
      by_cases hg : g = h
      · subst hg
        rw [hmem] at hl
        simp [hl]
      · simp [hg]
    | false =>
      rw [Bool.eq_iff_iff]
      simp

theorem State.Keeps.post (s : State) (h : Nat) (c : Completion) : s.Keeps (s.post h c) := by
  rcases s.post_cases h c with ⟨_, he⟩ | ⟨p, hp, hself, hother, hcompl, x, he, hfeeds, hrx, htx⟩
  · rw [he]; exact .refl s
  have hlisted := State.post_listed hp c
  have hpath (g : Nat) (r : PathRec) (hr : (s.post h c).path g = some r) :
      ∃ r', s.path g = some r' ∧ (r = r' ∧ g ≠ h ∨ r = r'.posted (s.listed h) c ∧ g = h) := by
    by_cases hg : g = h
    · subst hg
      rw [hself, Option.some.injEq] at hr
      exact ⟨p, hp, .inr ⟨hr.symm, rfl⟩⟩
    · exact ⟨r, (hother g hg) ▸ hr, .inl ⟨rfl, hg⟩⟩
  refine ⟨⟨?_, ?_, ?_, ?_, ?_, ?_, ?_⟩, ?_⟩
  · rw [he]; exact id
  · rw [he]; exact id
  · rintro ⟨hpaths, hrest⟩
    have hptb : (s.post h c).ptb.paths = Sparse.insert s.ptb.paths h (p.posted (s.listed h) c) := by
      simp [State.post, hp]
    refine ⟨hptb ▸ Sparse.rising_insert _ _ _ hpaths, ?_⟩
    rw [he]
    simpa [hfeeds, hrx, htx] using hrest
  · rw [he]; exact id
  · intro _ _ hm hs g r hr
    have hsilent : s.silent = true := by rw [he] at hs; exact hs
    obtain ⟨r', hr', (⟨rfl, _⟩ | ⟨rfl, _⟩)⟩ := hpath g r hr
    · exact hm hsilent g _ hr'
    · rw [PathRec.posted_offHighway]; exact hm hsilent g _ hr'
  · rintro _ ⟨hnodup, hentries, hpending⟩
    refine ⟨?_, fun e hmem => ?_, fun g r hr => ?_⟩
    · rw [hcompl]
      split
      · rwa [replaceCompletion_map_fst]
      · have hfresh := (s.listed_eq_false_iff h).mp (Bool.eq_false_iff.mpr ‹_›)
        rw [List.map_append, List.nodup_append]
        exact ⟨hnodup, by simp, by simpa using fun a b hab hah => hfresh (List.mem_map.mpr ⟨_, hab, hah⟩)⟩
    · rw [hcompl] at hmem
      have hentry : (e ∈ s.ptb.completions ∧ e.1 ≠ h) ∨ e = (h, c) := by
        split at hmem
        · obtain ⟨e', he', heq⟩ := List.mem_map.mp hmem
          by_cases hh : e'.1 = h
          · exact .inr (by simpa [hh] using heq.symm)
          · rw [if_neg hh] at heq
            exact .inl (heq ▸ ⟨he', hh⟩)
        · have hfresh := (s.listed_eq_false_iff h).mp (Bool.eq_false_iff.mpr ‹_›)
          rcases List.mem_append.mp hmem with hmem | hmem
          · exact .inl ⟨hmem, fun hh => hfresh (List.mem_map.mpr ⟨e, hmem, hh⟩)⟩
          · exact .inr (by simpa using hmem)
      rcases hentry with ⟨hmem, hh⟩ | rfl
      · obtain ⟨r, hr, hlast⟩ := hentries e hmem
        exact ⟨r, (hother _ hh).trans hr, hlast⟩
      · exact ⟨_, hself, (p.posted_fields _ c).2.2.2.2.2.2.2⟩
    · rw [hlisted]
      obtain ⟨r', hr', (⟨rfl, hg⟩ | ⟨rfl, rfl⟩)⟩ := hpath g r hr
      · rw [hpending g _ hr']
        simp [hg]
      · have hpend := hpending g _ hr'
        cases hl : s.listed g <;> simp [PathRec.posted, hl, hpend]
  · intro _ hok g r hr
    obtain ⟨r', hr', (⟨rfl, _⟩ | ⟨rfl, _⟩)⟩ := hpath g r hr
    · exact hok g _ hr'
    · exact PathRec.posted_ok (hok g _ hr') _ _
  · intro _ g r hr
    obtain ⟨r', hr', (⟨rfl, _⟩ | ⟨rfl, _⟩)⟩ := hpath g r hr
    · exact ⟨_, hr', .refl _⟩
    · exact ⟨r', hr', PathRec.posted_identity _ _ _⟩

end Sys2Proof.Machine

namespace Sys2Proof

/-- Writing a listed number again adds no number. -/
theorem Sparse.keys_insert_of_find {α : Type} {m : Sparse α} {k : Nat} {v w : α} (hm : Sparse.rising m = true)
    (hf : Sparse.find m k = some v) : Sparse.keys (Sparse.insert m k w) = Sparse.keys m := by
  induction m with
  | nil => simp [Sparse.find] at hf
  | cons e r ih =>
    obtain ⟨j, x⟩ := e
    simp only [Sparse.insert]
    have hjk : ¬ k < j := fun hlt => by simp [Sparse.find_eq_none_of_lt hm hlt] at hf
    rw [if_neg hjk]
    split
    · rename_i hk; subst hk; rfl
    · rename_i hk
      have hf' : Sparse.find r k = some v := by simpa [Sparse.find, Ne.symm hk] using hf
      have := ih (Sparse.rising_tail hm) hf'
      simpa [Sparse.keys] using this

theorem Sparse.mem_put {α : Type} [DecidableEq α] {d : α} {m : Sparse α} {k : Nat} {v : α} {e : Nat × α}
    (h : e ∈ Sparse.put d m k v) : e = (k, v) ∨ e ∈ m := by
  unfold Sparse.put at h
  split at h
  · exact .inr (Sparse.mem_erase h)
  · exact Sparse.mem_insert h

end Sys2Proof

namespace Sys2Proof.Machine

/-! ### Changes of HWY's own fields and of the owner maps -/

/-- A change of HWY that keeps its ranges and its cell map in form, keeps the station's state and what START gave, takes
nothing in while the station is silent, begins to drive nothing, and binds no monitor to a handle outside `H`. -/
structure Hwy.Kept (H : Nat → Prop) (silent : Bool) (w x : Hwy) : Prop where
  fixed : x.station = w.station ∧ x.number = w.number ∧ x.warm = w.warm ∧ x.doubt = w.doubt ∧ x.timeout = w.timeout ∧
    x.block = w.block
  sendQ : w.sendQ.length ≤ 8 → x.sendQ.length ≤ 8
  mons : x.mons.length = w.mons.length
  remaining : w.timeout ≤ 15 → (∀ m ∈ w.mons, m.remaining ≤ 15) → ∀ m ∈ x.mons, m.remaining ≤ 15
  msgCheck : w.msgCheck ≤ 65535 → x.msgCheck ≤ 65535
  cells : Sparse.wf .free w.cells = true → Sparse.wf .free x.cells = true
  drives : x.drives ≠ [] → w.drives ≠ []
  still : silent = true → w.sendQ = [] → (∀ m ∈ w.mons, m = .idle) → x.sendQ = [] ∧ ∀ m ∈ x.mons, m = .idle
  unbound : ∀ h, ¬ H h → (∀ m ∈ w.mons, m.isFor h = false) → ∀ m ∈ x.mons, m.isFor h = false

theorem Hwy.Kept.refl (H : Nat → Prop) (b : Bool) (w : Hwy) : w.Kept H b w :=
  ⟨⟨rfl, rfl, rfl, rfl, rfl, rfl⟩, id, rfl, fun _ => id, id, id, id, fun _ h h' => ⟨h, h'⟩, fun _ _ => id⟩

/-- A change of the cell map alone. -/
theorem Hwy.Kept.of_cells {H : Nat → Prop} {b : Bool} {w : Hwy} {m : Sparse CellEntry}
    (hm : Sparse.wf .free w.cells = true → Sparse.wf .free m = true) : w.Kept H b { w with cells := m } :=
  { Hwy.Kept.refl H b w with cells := hm }

/-- A change of the send queue alone that makes it no longer. -/
theorem Hwy.Kept.of_sendQ {H : Nat → Prop} {b : Bool} {w : Hwy} {l : List QueuedMsg} (hl : l.length ≤ w.sendQ.length) :
    w.Kept H b { w with sendQ := l } :=
  { Hwy.Kept.refl H b w with
    sendQ := fun h => Nat.le_trans hl h
    still := fun _ h h' => ⟨List.eq_nil_of_length_eq_zero (by simpa [h] using hl), h'⟩ }

/-- A change of the runs that are driven that adds none. -/
theorem Hwy.Kept.of_drives {H : Nat → Prop} {b : Bool} {w : Hwy} {l : List Drive} (hl : w.drives = [] → l = []) :
    w.Kept H b { w with drives := l } :=
  { Hwy.Kept.refl H b w with drives := fun h hw => h (hl hw) }

/-- A change of each monitor by itself, which makes none longer than the answer timeout and binds none. -/
theorem Hwy.Kept.of_mons {H : Nat → Prop} {b : Bool} {w : Hwy} {f : Monitor → Monitor}
    (hr : ∀ m, (f m).remaining ≤ max m.remaining w.timeout) (hi : f .idle = .idle)
    (hf : ∀ m h, m.isFor h = false → (f m).isFor h = false) : w.Kept H b { w with mons := w.mons.map f } :=
  { Hwy.Kept.refl H b w with
    mons := List.length_map ..
    remaining := fun ht hm m hmem => by
      obtain ⟨m', hmem', rfl⟩ := List.mem_map.mp hmem
      have := hr m'
      have := hm m' hmem'
      omega
    still := fun _ h h' => ⟨h, fun m hmem => by
      obtain ⟨m', hmem', rfl⟩ := List.mem_map.mp hmem
      rw [h' m' hmem', hi]⟩
    unbound := fun h _ hm m hmem => by
      obtain ⟨m', hmem', rfl⟩ := List.mem_map.mp hmem
      exact hf m' h (hm m' hmem') }

theorem State.silent_eq_false_of_mayCreate {s : State} (h : s.mayCreate = true) : s.silent = false := by
  simp only [State.mayCreate, State.silent, Bool.or_eq_true, beq_iff_eq] at *
  rcases h with h | h <;> rw [h] <;> rfl

theorem State.silent_congr {s t : State} (h : t.hwy.station = s.hwy.station) : t.silent = s.silent := by
  simp only [State.silent, h]

theorem State.Keeps.setHwy {s : State} {x : Hwy} {H : Nat → Prop} (hk : s.hwy.Kept H s.silent x) :
    s.Keeps (s.setHwy x) := by
  obtain ⟨hstation, hnumber, hwarm, hdoubt, htimeout, hblock⟩ := hk.fixed
  have hsilent : (s.setHwy x).silent = s.silent := State.silent_congr hstation
  refine ⟨⟨?_, id, ?_, ?_, ?_, fun _ => id, fun _ => id⟩, fun _ => .of_path_eq fun _ => rfl⟩
  · rintro ⟨h1, h2, h3, h4, h5, h6, h7, hw, hq, hmons, hmsg, h8, h9, h10, h11, h12, h13, h14, htime, hrem⟩
    exact ⟨h1, h2, h3, h4, h5, h6, h7, hwarm ▸ hw, hk.sendQ hq, hk.mons.trans hmons, hk.msgCheck hmsg, h8, h9, h10, h11,
      h12, h13, h14, htimeout ▸ htime, hk.remaining htime hrem⟩
  · rintro ⟨h1, h2, h3, h4, h5, h6, h7, h8, hcells, hrest⟩
    exact ⟨h1, h2, h3, h4, h5, h6, h7, h8, hk.cells hcells, hrest⟩
  · rintro ⟨hstarted, hnum, hstill, hdrives⟩
    refine ⟨hstation ▸ hstarted, hnumber ▸ hnum, fun hs => ?_, fun hd => hstation ▸ hdrives (hk.drives hd)⟩
    rw [hsilent] at hs
    obtain ⟨hq, hm⟩ := hstill hs
    exact hk.still hs hq hm
  · intro _ _ hm hs
    rw [hsilent] at hs
    exact hm hs

/-- A change of CBL that keeps its tables in form keeps every invariant. -/
theorem State.Keeps.setCbl {s : State} {x : Cbl} (ho : Sparse.rising s.cbl.owners = true → Sparse.rising x.owners = true)
    (hg : Sparse.rising s.cbl.out = true → Sparse.rising x.out = true) : s.Keeps (s.setCbl x) := by
  refine ⟨⟨id, id, ?_, id, fun _ _ => id, fun _ => id, fun _ => id⟩, fun _ => .of_path_eq fun _ => rfl⟩
  rintro ⟨h1, h2, h3, h4, h5, h6, h7, hown, h8, h9, h10, hout⟩
  exact ⟨h1, h2, h3, h4, h5, h6, h7, ho hown, h8, h9, h10, hg hout⟩

/-! ### The relation `Reworks` -/

/-- `t` is `s` after changes of records whose handles satisfy `H`, of the owner maps and of HWY's own fields. -/
inductive State.Reworks (H : Nat → Prop) : State → State → Prop
  | refl (s : State) : State.Reworks H s s
  | trans {s t u : State} : State.Reworks H s t → State.Reworks H t u → State.Reworks H s u
  | setPath {s : State} {h : Nat} {p q : PathRec} : H h → s.path h = some p → p.Kept s.silent q →
      State.Reworks H s (s.setPath h q)
  | mapPaths {s : State} {f : Nat → PathRec → PathRec} : (∀ h, H h) →
      (∀ h p, s.path h = some p → p.Kept s.silent (f h p)) → State.Reworks H s (s.mapPaths f)
  | post {h : Nat} (s : State) (c : Completion) : H h → State.Reworks H s (s.post h c)
  | setHwy {s : State} {x : Hwy} : s.hwy.Kept H s.silent x → State.Reworks H s (s.setHwy x)
  | setOwners {s : State} {m : Sparse Owner} : (Sparse.rising s.cbl.owners = true → Sparse.rising m = true) →
      State.Reworks H s (s.setCbl { s.cbl with owners := m })

namespace State.Reworks

variable {H : Nat → Prop} {s t : State}

theorem mono {H' : Nat → Prop} (h : State.Reworks H s t) (hH : ∀ g, H g → H' g) : State.Reworks H' s t := by
  induction h with
  | refl => exact .refl _
  | trans _ _ ih ih' => exact .trans ih ih'
  | setPath hh hp hk => exact .setPath (hH _ hh) hp hk
  | mapPaths hall hf => exact .mapPaths (fun g => hH g (hall g)) hf
  | post s c hh => exact .post s c (hH _ hh)
  | setHwy hk => exact .setHwy { hk with unbound := fun g hg => hk.unbound g (fun hg' => hg (hH g hg')) }
  | setOwners hm => exact .setOwners hm

theorem keeps (h : State.Reworks H s t) : s.Keeps t := by
  induction h with
  | refl => exact .refl _
  | trans _ _ ih ih' => exact ih.trans ih'
  | setPath _ hp hk => exact .setPath hp hk
  | mapPaths _ hf => exact .mapPaths hf
  | post s c _ => exact .post s _ c
  | setHwy hk => exact .setHwy hk
  | setOwners hm => exact .setCbl hm id

end State.Reworks

theorem State.setPtb_post (s : State) (h : Nat) (c : Completion) :
    ∃ x, s.post h c = s.setPtb x ∧ x.feeds = s.ptb.feeds ∧ x.rxBind = s.ptb.rxBind ∧ x.txBind = s.ptb.txBind := by
  rcases s.post_cases h c with ⟨_, he⟩ | ⟨_, _, _, _, _, hx⟩
  · exact ⟨s.ptb, he, rfl, rfl, rfl⟩
  · exact hx

/-- No block but PTB differs after a post. -/
@[simp] theorem State.post_ftm (s : State) (h : Nat) (c : Completion) : (s.post h c).ftm = s.ftm := by
  obtain ⟨x, hx, _⟩ := s.setPtb_post h c; rw [hx]; rfl
@[simp] theorem State.post_clp (s : State) (h : Nat) (c : Completion) : (s.post h c).clp = s.clp := by
  obtain ⟨x, hx, _⟩ := s.setPtb_post h c; rw [hx]; rfl
@[simp] theorem State.post_crx (s : State) (h : Nat) (c : Completion) : (s.post h c).crx = s.crx := by
  obtain ⟨x, hx, _⟩ := s.setPtb_post h c; rw [hx]; rfl
@[simp] theorem State.post_fil (s : State) (h : Nat) (c : Completion) : (s.post h c).fil = s.fil := by
  obtain ⟨x, hx, _⟩ := s.setPtb_post h c; rw [hx]; rfl
@[simp] theorem State.post_cbl (s : State) (h : Nat) (c : Completion) : (s.post h c).cbl = s.cbl := by
  obtain ⟨x, hx, _⟩ := s.setPtb_post h c; rw [hx]; rfl
@[simp] theorem State.post_hwy (s : State) (h : Nat) (c : Completion) : (s.post h c).hwy = s.hwy := by
  obtain ⟨x, hx, _⟩ := s.setPtb_post h c; rw [hx]; rfl
@[simp] theorem State.post_cnd (s : State) (h : Nat) (c : Completion) : (s.post h c).cnd = s.cnd := by
  obtain ⟨x, hx, _⟩ := s.setPtb_post h c; rw [hx]; rfl
@[simp] theorem State.post_cmd (s : State) (h : Nat) (c : Completion) : (s.post h c).cmd = s.cmd := by
  obtain ⟨x, hx, _⟩ := s.setPtb_post h c; rw [hx]; rfl
@[simp] theorem State.post_pending (s : State) (h : Nat) (c : Completion) : (s.post h c).pending = s.pending := by
  obtain ⟨x, hx, _⟩ := s.setPtb_post h c; rw [hx]; rfl

theorem State.path_post_self {s : State} {h : Nat} {p : PathRec} (hp : s.path h = some p) (c : Completion) :
    (s.post h c).path h = some (p.posted (s.listed h) c) := by
  rcases s.post_cases h c with ⟨hnone, _⟩ | ⟨p', hp', hself, _⟩
  · simp [hp] at hnone
  · rw [hp, Option.some.injEq] at hp'
    rw [hself, hp']

theorem State.path_post_ne (s : State) {h g : Nat} (hg : g ≠ h) (c : Completion) : (s.post h c).path g = s.path g := by
  rcases s.post_cases h c with ⟨_, he⟩ | ⟨_, _, _, hother, _⟩
  · rw [he]
  · exact hother g hg

/-! ### What a rework leaves -/

/-- What a rework leaves: the blocks but PTB, CBL and HWY, what START gave those, and the tables of the path table that
are not records or completions. -/
structure State.SameBlocks (s t : State) : Prop where
  blocks : t.ftm = s.ftm ∧ t.clp = s.clp ∧ t.crx = s.crx ∧ t.fil = s.fil ∧ t.cnd = s.cnd ∧ t.cmd = s.cmd ∧
    t.pending = s.pending
  cbl : t.cbl.holdoff = s.cbl.holdoff ∧ t.cbl.guard = s.cbl.guard ∧ t.cbl.plan = s.cbl.plan ∧ t.cbl.out = s.cbl.out
  hwy : t.hwy.station = s.hwy.station ∧ t.hwy.number = s.hwy.number ∧ t.hwy.warm = s.hwy.warm ∧
    t.hwy.doubt = s.hwy.doubt ∧ t.hwy.timeout = s.hwy.timeout ∧ t.hwy.block = s.hwy.block
  ptb : t.ptb.feeds = s.ptb.feeds ∧ t.ptb.rxBind = s.ptb.rxBind ∧ t.ptb.txBind = s.ptb.txBind

theorem State.SameBlocks.refl (s : State) : s.SameBlocks s :=
  ⟨⟨rfl, rfl, rfl, rfl, rfl, rfl, rfl⟩, ⟨rfl, rfl, rfl, rfl⟩, ⟨rfl, rfl, rfl, rfl, rfl, rfl⟩, ⟨rfl, rfl, rfl⟩⟩

theorem State.SameBlocks.of_setPtb {s : State} {x : Ptb}
    (hx : x.feeds = s.ptb.feeds ∧ x.rxBind = s.ptb.rxBind ∧ x.txBind = s.ptb.txBind) : s.SameBlocks (s.setPtb x) :=
  { State.SameBlocks.refl s with ptb := hx }

theorem State.SameBlocks.trans {s t u : State} (h : s.SameBlocks t) (h' : t.SameBlocks u) : s.SameBlocks u := by
  obtain ⟨h1, h2, h3, h4⟩ := h
  obtain ⟨h1', h2', h3', h4'⟩ := h'
  constructor <;> simp_all

theorem State.handles_setPath {s : State} {h : Nat} {p q : PathRec} (hs : Sparse.rising s.ptb.paths = true)
    (hp : s.path h = some p) : (s.setPath h q).handles = s.handles := Sparse.keys_insert_of_find hs hp

namespace State.Reworks

variable {H : Nat → Prop} {s t : State}

theorem sameBlocks (h : State.Reworks H s t) : s.SameBlocks t := by
  induction h with
  | refl => exact .refl _
  | trans _ _ ih ih' => exact ih.trans ih'
  | setPath _ _ _ => exact .of_setPtb ⟨rfl, rfl, rfl⟩
  | mapPaths _ _ => exact .of_setPtb ⟨rfl, rfl, rfl⟩
  | post s c _ =>
    obtain ⟨x, hx, htables⟩ := s.setPtb_post _ c
    rw [hx]
    exact .of_setPtb htables
  | setHwy hk => exact ⟨⟨rfl, rfl, rfl, rfl, rfl, rfl, rfl⟩, ⟨rfl, rfl, rfl, rfl⟩, hk.fixed, ⟨rfl, rfl, rfl⟩⟩
  | setOwners _ =>
    exact ⟨⟨rfl, rfl, rfl, rfl, rfl, rfl, rfl⟩, ⟨rfl, rfl, rfl, rfl⟩, ⟨rfl, rfl, rfl, rfl, rfl, rfl⟩, ⟨rfl, rfl, rfl⟩⟩

/-- A record whose handle is not in `H` is as it was. -/
theorem path_eq (h : State.Reworks H s t) {g : Nat} (hg : ¬ H g) : t.path g = s.path g := by
  induction h with
  | refl => rfl
  | trans _ _ ih ih' => rw [ih', ih]
  | setPath hh _ _ => exact State.path_setPath_ne _ _ (by rintro rfl; exact hg hh)
  | mapPaths hall _ => exact absurd (hall g) hg
  | post s c hh => exact s.path_post_ne (by rintro rfl; exact hg hh) c
  | setHwy _ => rfl
  | setOwners _ => rfl

/-- A record is neither made nor removed. -/
theorem isSome_path (h : State.Reworks H s t) (g : Nat) : (t.path g).isSome = (s.path g).isSome := by
  induction h with
  | refl => rfl
  | trans _ _ ih ih' => rw [ih', ih]
  | @setPath s h p q _ hp _ =>
    by_cases hg : g = h
    · rw [hg, State.path_setPath_self, hp]; rfl
    · rw [State.path_setPath_ne _ _ hg]
  | mapPaths _ _ => rw [State.path_mapPaths, Option.isSome_map]
  | @post h s c _ =>
    by_cases hg : g = h
    · subst hg
      rcases s.post_cases g c with ⟨_, he⟩ | ⟨p, hp, hself, _⟩
      · rw [he]
      · rw [hself, hp]; rfl
    · rw [s.path_post_ne hg]
  | setHwy _ => rfl
  | setOwners _ => rfl

/-- No monitor is bound to a handle that is not in `H`. -/
theorem unbound (h : State.Reworks H s t) {g : Nat} (hg : ¬ H g) (hm : ∀ m ∈ s.hwy.mons, m.isFor g = false) :
    ∀ m ∈ t.hwy.mons, m.isFor g = false := by
  induction h with
  | refl => exact hm
  | trans _ _ ih ih' => exact ih' (ih hm)
  | setPath _ _ _ => exact hm
  | mapPaths _ _ => exact hm
  | post s c _ => rw [State.post_hwy]; exact hm
  | setHwy hk => exact hk.unbound g hg hm
  | setOwners _ => exact hm

theorem silent_eq (h : State.Reworks H s t) : t.silent = s.silent := State.silent_congr h.sameBlocks.hwy.1

theorem mayCreate_eq (h : State.Reworks H s t) : t.mayCreate = s.mayCreate := by
  unfold State.mayCreate
  rw [h.sameBlocks.hwy.1]

theorem self_eq (h : State.Reworks H s t) : t.self = s.self := by
  unfold State.self
  rw [h.sameBlocks.hwy.2.1]

/-- The handles in use are the same. -/
theorem handles_eq (h : State.Reworks H s t) (hs : Sparse.rising s.ptb.paths = true) :
    t.handles = s.handles ∧ Sparse.rising t.ptb.paths = true := by
  induction h with
  | refl => exact ⟨rfl, hs⟩
  | trans _ _ ih ih' =>
    obtain ⟨heq, hr⟩ := ih hs
    obtain ⟨heq', hr'⟩ := ih' hr
    exact ⟨heq'.trans heq, hr'⟩
  | setPath _ hp _ => exact ⟨State.handles_setPath hs hp, Sparse.rising_insert _ _ _ hs⟩
  | mapPaths _ _ => exact ⟨Sparse.keys_mapVals _ _, Sparse.rising_mapVals _ _ hs⟩
  | @post h s c hh =>
    rcases hp : s.path h with _ | p
    · rw [State.post, hp]; exact ⟨rfl, hs⟩
    · rw [State.post, hp]; exact ⟨Sparse.keys_insert_of_find hs hp, Sparse.rising_insert _ _ _ hs⟩
  | setHwy _ => exact ⟨rfl, hs⟩
  | setOwners _ => exact ⟨rfl, hs⟩

theorem foldl {α : Type} {f : State → α → State} {l : List α}
    (hf : ∀ u : State, ∀ a ∈ l, State.Reworks H u (f u a)) (s : State) : State.Reworks H s (l.foldl f s) := by
  induction l generalizing s with
  | nil => exact .refl s
  | cons a l ih => exact (hf s a (by simp)).trans (ih (fun u b hb => hf u b (List.mem_cons_of_mem _ hb)) (f s a))

/-- Every record in turn. -/
theorem forPaths {f : Nat → State → State} (hf : ∀ h (u : State), State.Reworks (· = h) u (f h u)) (s : State) :
    State.Reworks (fun _ => True) s (s.forPaths f) :=
  foldl (fun u h _ => (hf h u).mono fun _ _ => trivial) s

theorem modPath {h : Nat} {f : PathRec → PathRec} (hh : H h) (hf : ∀ p, s.path h = some p → p.Kept s.silent (f p)) :
    State.Reworks H s (s.modPath h f) := by
  rcases s.modPath_cases h f with ⟨_, he⟩ | ⟨p, hp, he⟩ <;> rw [he]
  · exact .refl s
  · exact .setPath hh hp (hf p hp)

end State.Reworks

theorem State.Reworks.sameOthers {s t : State} {h : Nat} (hr : State.Reworks (· = h) s t) :
    Machine.sameOthers h s t := fun _ hg => hr.path_eq hg

theorem State.Reworks.sameButPaths {H : Nat → Prop} {s t : State} (hr : State.Reworks H s t) (hc : t.cbl = s.cbl) :
    Machine.sameButPaths s t := by
  obtain ⟨hftm, hclp, hcrx, hfil, hcnd, hcmd, hpending⟩ := hr.sameBlocks.blocks
  exact ⟨hftm, hclp, hcrx, hfil, hc, hcnd, hcmd, hpending⟩

end Sys2Proof.Machine

/-! ## Proofs: what claims and moves rework -/

namespace Sys2Proof.Machine

/-! ### Changes of the fields of a record -/

namespace PathRec.Kept

variable {b : Bool} {p : PathRec}

theorem of_hw {w : SrcHw} (ha : p.hw.attempt ≤ 4 → w.attempt ≤ 4) (hc : p.hw.clean ≤ 64 → w.clean ≤ 64) :
    p.Kept b { p with hw := w } :=
  { PathRec.Kept.refl b p with
    ok := by
      rintro ⟨h1, h2, h3, h4, h5, h6, hattempt, hclean, h7⟩
      exact ⟨h1, h2, h3, h4, h5, h6, ha hattempt, hc hclean, h7⟩ }

theorem of_sk {k : SnkHw} (hc : p.sk.check ≤ 255 → k.check ≤ 255) (hl : p.sk.loss ≤ 1 → k.loss ≤ 1) :
    p.Kept b { p with sk := k } :=
  { PathRec.Kept.refl b p with
    ok := by
      rintro ⟨h1, h2, h3, h4, h5, h6, h7, h8, hcheck, hloss⟩
      exact ⟨h1, h2, h3, h4, h5, h6, h7, h8, hc hcheck, hl hloss⟩ }

theorem of_state {st : PState} (hoff : b = true → p.offHighway = true → ({ p with state := st }).offHighway = true) :
    p.Kept b { p with state := st } :=
  { PathRec.Kept.refl b p with off := hoff }

theorem of_fil {g : Option Fil} (hi : g.isSome = p.fil.isSome)
    (hg : (∀ f, p.fil = some f → f.Ok p.k) → ∀ f, g = some f → f.Ok p.k) : p.Kept b { p with fil := g } :=
  { PathRec.Kept.refl b p with
    ok := by
      rintro ⟨h1, hfil, hok, hrest⟩
      exact ⟨h1, by rwa [← hi] at hfil, hg hok, hrest⟩ }

theorem of_carry {q : List CarryEntry} (hq : p.carry.length ≤ 2 → q.length ≤ 2) : p.Kept b { p with carry := q } :=
  { PathRec.Kept.refl b p with
    ok := by
      rintro ⟨h1, h2, h3, hcarry, hrest⟩
      exact ⟨h1, h2, h3, hq hcarry, hrest⟩ }

theorem of_sq {q : Squelch} (hq : p.sq.quiet ≤ 15 → q.quiet ≤ 15) : p.Kept b { p with sq := q } :=
  { PathRec.Kept.refl b p with
    ok := by
      rintro ⟨h1, h2, h3, h4, h5, hquiet, hrest⟩
      exact ⟨h1, h2, h3, h4, h5, hq hquiet, hrest⟩ }

/-- The fields of moves of berths, and the sink that they change, are outside the ranges. -/
theorem of_berths (e : Option Endpoint) (m u : Option BerthMove) :
    p.Kept b { p with sink := e, bmove := m, undo := u } := ⟨.refl p, rfl, rfl, id, fun _ => id⟩

end PathRec.Kept

/-- A record of a role and a state takes no part on the highway. -/
def PState.off (r : Role) (st : PState) : Bool :=
  match r, st with
  | .source, .claiming | .source, .carrying | .source, .collided | .source, .moving => false
  | .sink, .accepted | .sink, .receiving | .sink, .moving => false
  | _, _ => true

theorem PathRec.offHighway_eq_off (p : PathRec) : p.offHighway = p.state.off p.role := by
  unfold PathRec.offHighway PState.off
  cases p.role <;> cases p.state <;> rfl

theorem PathRec.offHighway_of_loc {p : PathRec} (h : p.role = .loc) : p.offHighway = true := by
  rw [PathRec.offHighway_eq_off, h]
  cases p.state <;> rfl

/-- In the state no record of any role takes part on the highway. -/
def PState.rests (st : PState) : Bool := [Role.loc, .source, .sink].all fun r => st.off r

/-- A record that takes no part on the highway in the first state takes none in the second. -/
def PState.alike (a b : PState) : Bool := [Role.loc, .source, .sink].all fun r => !a.off r || b.off r

theorem PathRec.offHighway_of_rests {p : PathRec} (h : p.state.rests = true) : p.offHighway = true := by
  rw [PathRec.offHighway_eq_off]
  exact List.all_eq_true.mp h p.role (by cases p.role <;> simp)

theorem PathRec.offHighway_of_alike {p q : PathRec} (hr : q.role = p.role) (h : p.state.alike q.state = true)
    (hoff : p.offHighway = true) : q.offHighway = true := by
  rw [PathRec.offHighway_eq_off] at *
  have := List.all_eq_true.mp h p.role (by cases p.role <;> simp)
  simpa [hoff, hr] using this

namespace State.Reworks

variable {H : Nat → Prop} {s : State} {h : Nat}

/-! ### Records -/

theorem modHw {f : SrcHw → SrcHw} (hh : H h) (hf : ∀ w : SrcHw, (w.attempt ≤ 4 → (f w).attempt ≤ 4) ∧
    (w.clean ≤ 64 → (f w).clean ≤ 64)) : State.Reworks H s (s.modHw h f) :=
  .modPath hh fun p _ => .of_hw (hf p.hw).1 (hf p.hw).2

theorem modSk {f : SnkHw → SnkHw} (hh : H h) (hf : ∀ k : SnkHw, (k.check ≤ 255 → (f k).check ≤ 255) ∧
    (k.loss ≤ 1 → (f k).loss ≤ 1)) : State.Reworks H s (s.modSk h f) :=
  .modPath hh fun p _ => .of_sk (hf p.sk).1 (hf p.sk).2

/-- A request that brings no record onto the highway while the station is silent. -/
theorem request_of {a b : PState} (hh : H h) (hoff : s.silent = true → ∀ p, s.path h = some p → p.state = a →
    p.offHighway = true → ({ p with state := b }).offHighway = true) : State.Reworks H s (s.request h a b) := by
  refine .modPath hh fun p hp => ?_
  split
  · exact .of_state fun hs ho => hoff hs p hp ‹_› ho
  · exact .refl _ _

theorem request_rests {a b : PState} (hh : H h) (hb : b.rests = true) : State.Reworks H s (s.request h a b) :=
  request_of hh fun _ _ _ _ _ => PathRec.offHighway_of_rests hb

theorem request_alike {a b : PState} (hh : H h) (hab : a.alike b = true) : State.Reworks H s (s.request h a b) :=
  request_of hh fun _ p _ hp ho => PathRec.offHighway_of_alike (p := p) rfl (by rwa [hp]) ho

theorem request_awake {a b : PState} (hh : H h) (hs : s.silent = false) : State.Reworks H s (s.request h a b) :=
  request_of hh fun hs' => by simp [hs] at hs'

/-! ### The send queue, the cell map, the monitors and the owner maps -/

theorem send (m : Msg) : State.Reworks H s (s.send m) := by
  rcases s.send_cases m with ⟨_, he⟩ | ⟨hroom, hlen, he⟩ <;> rw [he]
  · exact .refl s
  refine .setHwy { Hwy.Kept.refl H s.silent s.hwy with sendQ := fun _ => by simp; omega, still := fun hs => ?_ }
  have hmay : s.mayCreate = true := by
    simp only [State.hasRoom, Bool.and_eq_true] at hroom
    exact hroom.1
  simp [State.silent_eq_false_of_mayCreate hmay] at hs

theorem unsend (f : Msg → Bool) : State.Reworks H s (s.unsend f) := .setHwy (.of_sendQ (List.length_filter_le _ _))

theorem onRun (x k : Nat) (f : CellEntry → CellEntry) : State.Reworks H s (s.onRun x k f) :=
  .setHwy (.of_cells (wf_mapRun _ _ _ _))

theorem freeOpt (x : Option Nat) (k : Nat) : State.Reworks H s (s.freeOpt x k) := by
  cases x with
  | none => exact .refl s
  | some x => exact onRun x k _

theorem sendRelease (p : PathRec) (x : Nat) (r : ReleaseReason) : State.Reworks H s (s.sendRelease p x r) := send _

theorem releaseOpt (p : PathRec) (x : Option Nat) (r : ReleaseReason) : State.Reworks H s (s.releaseOpt p x r) := by
  cases x with
  | none => exact .refl s
  | some x => exact send _

theorem idleMonitors (g : Nat) : State.Reworks H s (s.idleMonitors g) := by
  refine .setHwy (.of_mons (fun m => ?_) ?_ fun m g' hm => ?_)
  · split <;> simp [Monitor.remaining]
  · simp
  · split
    · rfl
    · exact hm

theorem setOwner (c b k g : Nat) (r : BerthRole) : State.Reworks H s (s.setOwner c b k g r) := by
  refine .setOwners fun hs => ?_
  induction k with
  | zero => exact hs
  | succ k ih => exact Sparse.rising_insert _ _ _ ih

theorem clearOwner (c b k : Nat) : State.Reworks H s (s.clearOwner c b k) := by
  refine .setOwners fun hs => ?_
  induction k with
  | zero => exact hs
  | succ k ih => exact Sparse.rising_erase _ _ ih

/-! ### Moves of outgoing berths (R148 to R150) -/

theorem failBerthMove (hh : H h) (c : MoveCause) : State.Reworks H s (s.failBerthMove h c) := by
  unfold State.failBerthMove
  split
  · exact .refl s
  · rename_i p hp
    split
    · exact .refl s
    · exact (setPath hh hp (.of_berths _ _ _)).trans (.post _ _ hh)

theorem undoBerths (hh : H h) : State.Reworks H s (State.undoBerths h s) := by
  unfold State.undoBerths
  split
  · exact .refl s
  · rename_i p hp
    split
    · exact .refl s
    · rename_i m _
      refine (clearOwner m.newC m.newB p.k).trans ?_
      dsimp only
      split
      · exact (setOwner _ _ _ _ _).trans (setPath hh hp (.of_berths _ _ _))
      · exact setPath hh hp (.of_berths _ _ _)

theorem berthSwitch {p : PathRec} (hh : H h) (hp : s.path h = some p) (m : BerthMove) :
    State.Reworks H s (s.berthSwitch h p m) :=
  (setOwner _ _ _ _ _).trans ((setOwner _ _ _ _ _).trans (setPath hh hp (.of_berths _ _ _)))

/-- A record whose move of berths ends returns to its live state (R148, R149). -/
theorem request_liveState {p : PathRec} (hh : H h) (hp : ∀ q, s.path h = some q → q.role = p.role) :
    State.Reworks H s (s.request h .moving p.liveState) := by
  refine request_of hh fun _ q hq hst ho => ?_
  have hr := hp q hq
  cases hrole : p.role with
  | loc => exact PathRec.offHighway_of_loc (hr.trans hrole)
  | source => simp [PathRec.offHighway, hr, hrole, hst] at ho
  | sink => simp [PathRec.offHighway, hr, hrole, hst] at ho

theorem berthDone {p : PathRec} (hh : H h) (hp : s.path h = some p) (m : BerthMove) :
    State.Reworks H s (s.berthDone h p m) := by
  unfold State.berthDone
  refine .trans ?_ (.post _ _ hh)
  refine .trans ?_ (request_liveState hh fun q hq => ?_)
  · exact .trans (clearOwner _ _ _) (setPath hh hp (.of_berths _ _ _))
  · rw [State.path_setPath_self, Option.some.injEq] at hq
    rw [← hq]

theorem stepBerths (hh : H h) : State.Reworks H s (State.stepBerths h s) := by
  unfold State.stepBerths
  split
  · exact .refl s
  · rename_i p hp
    split
    · exact .refl s
    · rename_i m _
      split
      · exact .refl s
      · split
        · exact berthSwitch hh hp m
        · exact setPath hh hp (.of_berths _ _ _)
      · exact berthDone hh hp m

theorem beginBerths (hh : H h) : State.Reworks H s (State.beginBerths h s) := by
  unfold State.beginBerths
  split
  · exact .refl s
  · rename_i p hp
    split
    · exact .refl s
    · rename_i m _
      split
      · split
        · refine (setPath hh hp (.of_berths _ _ _)).trans (.trans (request_liveState hh fun q hq => ?_) (.post _ _ hh))
          rw [State.path_setPath_self, Option.some.injEq] at hq
          rw [← hq]
        · exact (setOwner _ _ _ _ _).trans (setPath hh hp (.of_berths _ _ _))
      · exact .refl s

/-! ### Moves of cells at the source (R151 to R156) -/

theorem failCellMove (hh : H h) (c : MoveCause) : State.Reworks H s (s.failCellMove h c) := by
  unfold State.failCellMove
  refine .trans ?_ (.post _ _ hh)
  refine .trans ?_ (request_alike hh rfl)
  exact modHw hh fun _ => ⟨id, id⟩

theorem dropNewRun (p : PathRec) (r : ReleaseReason) : State.Reworks H s (s.dropNewRun h p r) := by
  unfold State.dropNewRun
  refine .trans (t := if s.claimQueued h then s.unsendClaim p.tag else s.releaseOpt p p.newRun r) ?_
    ((idleMonitors _).trans (freeOpt _ _))
  split
  · exact unsend _
  · exact releaseOpt _ _ _

theorem abandonCellMove (hh : H h) (p : PathRec) (c : MoveCause) : State.Reworks H s (s.abandonCellMove h p c) := by
  unfold State.abandonCellMove
  refine .trans ?_ (.post _ _ hh)
  refine .trans ?_ (modHw hh fun _ => ⟨id, id⟩)
  exact dropNewRun p _

theorem cellSwitch (hh : H h) (m : CellMove) : State.Reworks H s (s.cellSwitch h m) := modHw hh fun _ => ⟨id, id⟩

theorem cellDone (hh : H h) (p : PathRec) (m : CellMove) : State.Reworks H s (s.cellDone h p m) := by
  unfold State.cellDone
  refine .trans ?_ (.post _ _ hh)
  refine .trans ?_ (request_alike hh rfl)
  refine .trans ?_ (modHw hh fun _ => ⟨id, fun _ => Nat.zero_le _⟩)
  exact .trans (onRun _ _ _) (sendRelease _ _ _)

theorem stepCells (hh : H h) : State.Reworks H s (State.stepCells h s) := by
  unfold State.stepCells
  split
  · exact .refl s
  · rename_i p hp
    split
    · exact .refl s
    · rename_i m _
      split
      · refine .trans (t := match m.new with | some x => s.holdRun x p.k | none => s) ?_ (modHw hh fun _ => ⟨id, id⟩)
        split
        · exact onRun _ _ _
        · exact .refl s
      · split
        · exact cellSwitch hh m
        · exact modHw hh fun _ => ⟨id, id⟩
      · exact cellDone hh p m
      · exact .refl s
      · exact .refl s

/-! ### Cell moves of a sink, and sinks that stop receiving (R131, R132, R141, R144, R154) -/

theorem cancelSinkMove (hh : H h) (p : PathRec) : State.Reworks H s (s.cancelSinkMove h p) := by
  unfold State.cancelSinkMove
  split
  · exact .refl s
  · rename_i m _
    refine .trans (t := if m.status = .queued then s.unsendAccept p.tag true else s) ?_ (modSk hh fun _ => ⟨id, id⟩)
    split
    · exact unsend _
    · exact .refl s

theorem sinkSwitch (hh : H h) (m : SinkMove) : State.Reworks H s (s.sinkSwitch h m) :=
  modSk hh fun _ => ⟨fun _ => Nat.zero_le _, fun _ => Nat.zero_le _⟩

theorem stepSinkMove (hh : H h) : State.Reworks H s (State.stepSinkMove h s) := by
  unfold State.stepSinkMove
  split
  · exact .refl s
  · split
    · exact .refl s
    · rename_i m _
      split
      · exact .refl s
      · exact modSk hh fun _ => ⟨id, id⟩
      · split
        · exact sinkSwitch hh m
        · exact modSk hh fun _ => ⟨id, id⟩

theorem sinkListens (hh : H h) (c : MoveCause) : State.Reworks H s (s.sinkListens h c) := by
  unfold State.sinkListens
  refine (failBerthMove hh c).trans ?_
  dsimp only
  split
  · exact .refl _
  · rename_i p _
    refine (cancelSinkMove hh p).trans ?_
    refine .trans (t := if p.sk.status = some .queued then State.unsendAccept _ p.tag false else _) ?_
      ((modSk hh fun _ => ⟨fun _ => Nat.zero_le _, fun _ => Nat.zero_le _⟩).trans (request_rests hh rfl))
    split
    · exact unsend _
    · exact .refl _

end State.Reworks

end Sys2Proof.Machine

/-! ## Proofs: what messages, cells and boundaries rework -/

namespace Sys2Proof.Machine

theorem satInc_le (top n : Nat) : satInc top n ≤ top := by
  rw [satInc_eq_min]
  exact Nat.min_le_left _ _

theorem State.silent_eq_false_of_hasRoom {s : State} (h : s.hasRoom = true) : s.silent = false := by
  simp only [State.hasRoom, Bool.and_eq_true] at h
  exact State.silent_eq_false_of_mayCreate h.1

theorem PathRec.examine_kept (b : Bool) (x : Nat) (line : BitVec 42) (payload : List Byte)
    (p : PathRec) : p.Kept b (p.examine x line payload) := by
  unfold PathRec.examine
  split
  · exact .refl _ _
  · split
    · dsimp only
      split
      · exact .of_sk id id
      · split
        · exact .of_sk (fun _ => satInc_le _ _) id
        · exact .refl _ _
      · split
        · exact .of_sk id id
        · exact .refl _ _
    · exact .refl _ _

namespace State.Reworks

variable {H : Nat → Prop} {s : State} {h : Nat}

theorem holdRun (x k : Nat) : State.Reworks H s (s.holdRun x k) := onRun _ _ _

theorem applyMap (m : Msg) : State.Reworks H s (s.applyMap m) := by
  unfold State.applyMap
  dsimp only
  split_ifs
  · exact .refl s
  · exact onRun _ _ _

/-! ### Withdrawal (R126) -/

theorem withdraw (hh : H h) (p : PathRec) (run : Nat) : State.Reworks H s (s.withdraw h p run) := by
  have hqueue : State.Reworks H s (((s.unsendClaim p.tag).idleMonitors h).freeRun run p.k) :=
    .trans (.trans (unsend _) (idleMonitors _)) (onRun _ _ _)
  unfold State.withdraw
  dsimp only
  split
  · refine .trans ?_ (request_rests hh rfl)
    exact hqueue.trans (modHw hh fun _ => ⟨id, id⟩)
  · exact hqueue.trans (modHw hh fun _ => ⟨id, id⟩)

theorem withdrawMeeting (first size : Nat) :
    State.Reworks (fun _ => True) s (s.withdrawMeeting first size) := by
  refine forPaths (fun h u => ?_) s
  split
  · exact .refl u
  · rename_i p _
    split
    · exact .refl u
    · split
      · exact withdraw (H := (· = h)) rfl p _
      · exact .refl u

/-! ### The sink's answer (R130, R131) -/

theorem acceptClaim (hh : H h) (hs : s.silent = false) (b : MsgBody) :
    State.Reworks H s (s.acceptClaim h b) := by
  unfold State.acceptClaim
  split
  · exact .trans (send _) (modSk hh fun _ => ⟨id, id⟩)
  · have hfail := failBerthMove (s := s) hh .lost
    dsimp only
    split
    · exact hfail
    · rename_i p _
      have hsend := hfail.trans ((cancelSinkMove hh p).trans (send (.accept (answerTo s b))))
      refine .trans ?_ (request_awake hh ?_)
      · exact hsend.trans (modSk hh fun _ => ⟨fun _ => Nat.zero_le _, fun _ => Nat.zero_le _⟩)
      · exact (hsend.trans (modSk hh fun _ => ⟨fun _ => Nat.zero_le _, fun _ => Nat.zero_le _⟩)).silent_eq.trans hs

theorem answerClaim (b : MsgBody) (conflict : Bool) :
    State.Reworks (fun _ => True) s (s.answerClaim b conflict) := by
  unfold State.answerClaim
  split
  · rename_i hroom
    split
    · exact send _
    · split
      · exact send _
      · split
        · exact send _
        · exact acceptClaim trivial (State.silent_eq_false_of_hasRoom hroom) b
  · exact .refl s

theorem withdrawHeard (c : Bool) (first size : Nat) :
    State.Reworks (fun _ => True) s (if c then s else s.withdrawMeeting first size) := by
  cases c
  · exact withdrawMeeting _ _
  · exact .refl s

theorem hearClaim (b : MsgBody) : State.Reworks (fun _ => True) s (s.hearClaim b) := by
  have hanswer (u : State) (c : Bool) :
      State.Reworks (fun _ => True) u (if u.isOwn b.addressee then u.answerClaim b c else u) := by
    split
    · exact answerClaim _ _
    · exact .refl _
  exact (withdrawHeard (s.isOwn b.sender) b.first b.size).trans ((applyMap (.claim b)).trans (hanswer _ _))

/-! ### The claimant (R128, R133, R134, R152) -/

theorem takeAccept (hh : H h) (move : Bool) : State.Reworks H s (s.takeAccept h move) := by
  unfold State.takeAccept
  refine (idleMonitors h).trans ?_
  dsimp only
  split
  · refine modPath hh fun p _ => ?_
    split
    · split
      · exact .of_hw id id
      · exact .refl _ _
    · exact .refl _ _
  · refine modPath hh fun p _ => ?_
    split
    · exact .of_hw id id
    · exact .refl _ _

theorem lateAccept (b : MsgBody) : State.Reworks H s (s.lateAccept b) := by
  unfold State.lateAccept
  split
  · exact .refl s
  · exact send _

theorem hearAccept (b : MsgBody) : State.Reworks (fun _ => True) s (s.hearAccept b) := by
  have hanswer (u : State) : State.Reworks (fun _ => True) u
      (if u.isOwn b.addressee then
        match u.matchAnswer b with
        | some h => u.takeAccept h b.move
        | none => u.lateAccept b
      else u) := by
    split
    · split
      · exact takeAccept trivial _
      · exact lateAccept b
    · exact .refl _
  exact (withdrawHeard (s.isOwn b.addressee) b.first b.size).trans ((hanswer _).trans (applyMap (.accept b)))

theorem takeRefuse (hh : H h) (move : Bool) (r : RefuseReason) : State.Reworks H s (s.takeRefuse h move r) := by
  unfold State.takeRefuse
  refine (idleMonitors h).trans ?_
  dsimp only
  split
  · exact .refl _
  · rename_i p _
    split
    · split
      · exact .refl _
      · refine .trans ?_ (failCellMove hh _)
        exact .trans (freeOpt _ _) (modHw hh fun _ => ⟨id, id⟩)
    · split
      · refine .trans ?_ (.post _ _ hh)
        refine .trans ?_ (request_rests hh (by cases r <;> rfl))
        exact .trans (freeOpt _ _) (modHw hh fun _ => ⟨id, id⟩)
      · exact .refl _

theorem hearRefuse (b : MsgBody) (r : RefuseReason) : State.Reworks (fun _ => True) s (s.hearRefuse b r) := by
  unfold State.hearRefuse
  refine .trans ?_ (applyMap (.refuse b r))
  split
  · split
    · exact takeRefuse trivial _ _
    · exact .refl s
  · exact .refl s

/-! ### RELEASE (R132, R143, R154, R156) -/

theorem releaseSink (hh : H h) (p : PathRec) (b : MsgBody) : State.Reworks H s (s.releaseSink h p b) := by
  unfold State.releaseSink
  split
  · split
    · exact sinkListens hh _
    · exact .trans (sinkListens hh _) (.post _ _ hh)
    · exact .trans (sinkListens hh _) (.post _ _ hh)
    · exact .refl s
  · split
    · split
      · exact cancelSinkMove hh p
      · exact .refl s
    · exact .refl s

theorem sourceReleased (hh : H h) (p : PathRec) (found : PState) :
    State.Reworks H s (s.sourceReleased h p found) := by
  unfold State.sourceReleased
  refine .trans ?_ (request_rests hh rfl)
  exact .trans (freeOpt _ _) (modHw hh fun _ => ⟨id, fun _ => Nat.zero_le _⟩)

theorem sinkGone (hh : H h) (p : PathRec) (b : MsgBody) : State.Reworks H s (s.sinkGone h p b) := by
  unfold State.sinkGone
  split
  · split
    · exact sourceReleased hh p _
    · split
      · exact .refl s
      · exact .trans (idleMonitors _) (sourceReleased hh p _)
    · exact .trans (abandonCellMove hh p _) (sourceReleased hh p _)
    · exact .refl s
  · split
    · split
      · refine .trans ?_ (sourceReleased hh p _)
        refine .trans ?_ (.post _ _ hh)
        exact .trans (freeOpt _ _) (modHw hh fun _ => ⟨id, id⟩)
      · exact .refl s
    · exact .refl s

theorem hearRelease (b : MsgBody) (r : ReleaseReason) : State.Reworks (fun _ => True) s (s.hearRelease b r) := by
  unfold State.hearRelease
  refine (applyMap (.release b r)).trans ?_
  dsimp only
  split
  · split
    · exact .refl _
    · split
      · split
        · exact sinkGone trivial _ _
        · exact releaseSink trivial _ _
      · exact .refl _
  · exact .refl _

/-- A message that is heard reworks records, the cell map, the send queue and the monitors (R110). -/
theorem hear (m : Msg) : State.Reworks (fun _ => True) s (s.hear m) := by
  cases m with
  | claim b => exact hearClaim b
  | accept b => exact hearAccept b
  | refuse b r => exact hearRefuse b r
  | release b r => exact hearRelease b r

/-! ### MUTE on one record (R102, R144) -/

theorem mutePath (hh : H h) : State.Reworks H s (State.mutePath h s) := by
  unfold State.mutePath
  split
  · exact .refl s
  · rename_i p _
    have hdrop : State.Reworks H s ((((s.freeOpt p.hw.cells p.k).freeOpt p.newRun p.k).modHw h (fun w =>
        { w with cells := none, acceptHeard := false, clean := 0, cleanRun := false, move := none })).request h p.state
          .waiting) := by
      refine .trans ?_ (request_rests hh rfl)
      exact .trans (.trans (freeOpt _ _) (freeOpt _ _)) (modHw hh fun _ => ⟨id, fun _ => Nat.zero_le _⟩)
    split
    · exact .refl s
    · split
      case h_1 | h_2 | h_3 | h_4 =>
        dsimp only
        split
        · exact hdrop.trans (.post _ _ hh)
        · exact hdrop
      case h_5 => exact .refl s
    · split
      · exact sinkListens hh _
      · exact sinkListens hh _
      · exact sinkListens hh _
      · exact modSk hh fun _ => ⟨id, id⟩

/-! ### Bursts and answers that are too old (R104, R108) -/

theorem winBurst (m : Msg) : State.Reworks (fun _ => True) s (s.winBurst m) := by
  have hdrop : State.Reworks (fun _ => True) s
      (s.setHwy { s.hwy with sendQ := s.hwy.sendQ.drop 1, yielding := true }) :=
    .setHwy { Hwy.Kept.of_sendQ (l := s.hwy.sendQ.drop 1) (by simp) with }
  have hmap := hdrop.trans (applyMap m)
  unfold State.winBurst
  dsimp only
  split
  · refine hmap.trans (.setHwy (.of_mons (fun n => ?_) rfl fun n g hn => ?_))
    · cases n <;> simp only [Monitor.start] <;> (try split) <;> simp [Monitor.remaining]
    · cases n <;> simp only [Monitor.start] <;> (try split) <;> exact hn
  · refine hmap.trans (.mapPaths (fun _ => trivial) fun _ p _ => ?_)
    unfold PathRec.acceptSent
    split
    · split
      · exact .of_sk id id
      · exact .of_sk id id
    · exact .refl _ _
  · exact hmap

theorem answerDropped (m : Msg) : State.Reworks (fun _ => True) s (s.answerDropped m) := by
  unfold State.answerDropped
  split
  · split
    · exact .refl s
    · split
      · exact modSk trivial fun _ => ⟨id, id⟩
      · split
        · refine .trans ?_ (request_rests trivial rfl)
          exact modSk trivial fun _ => ⟨id, id⟩
        · exact .refl s
  · exact .refl s

theorem dropStale : State.Reworks (fun _ => True) s s.dropStale := by
  unfold State.dropStale
  refine .trans ?_ (foldl (fun _ _ _ => answerDropped _) _)
  exact .setHwy (.of_sendQ (List.length_filter_le _ _))

theorem ageQueue : State.Reworks (fun _ => True) s s.ageQueue := by
  unfold State.ageQueue
  refine .trans ?_ dropStale
  exact .setHwy (.of_sendQ (by simp))

theorem execAnswerDrop {t : State} (ht : execAnswerDrop s = .next t) : State.Reworks (fun _ => True) s t := by
  simp only [Machine.execAnswerDrop, Host.Outcome.next.injEq] at ht
  subst ht
  refine .trans ?_ (foldl (fun _ _ _ => answerDropped _) _)
  exact .setHwy (.of_sendQ (List.length_filter_le _ _))

/-! ### Collisions and cells (R112, R113, R135, R155) -/

theorem collideCarrying (hh : H h) (p : PathRec) {found : PState} (hf : found.alike .collided = true) :
    State.Reworks H s (s.collideCarrying h p found) := by
  have hfree : State.Reworks H s ((s.releaseOpt p p.hw.cells .collision).freeOpt p.hw.cells p.k) :=
    .trans (releaseOpt _ _ _) (freeOpt _ _)
  unfold State.collideCarrying
  dsimp only
  split
  · refine .trans ?_ (request_alike hh hf)
    exact hfree.trans (modHw hh fun _ => ⟨fun _ => satInc_le _ _, fun _ => Nat.zero_le _⟩)
  · refine .trans ?_ (.post _ _ hh)
    refine .trans ?_ (request_rests hh rfl)
    exact hfree.trans (modHw hh fun _ => ⟨fun _ => satInc_le _ _, fun _ => Nat.zero_le _⟩)

theorem collideNew (hh : H h) (p : PathRec) : State.Reworks H s (s.collideNew h p) := by
  unfold State.collideNew
  refine .trans ?_ (failCellMove hh _)
  exact .trans (.trans (freeOpt _ _) (releaseOpt _ _ _)) (modHw hh fun _ => ⟨id, id⟩)

theorem collide (hh : H h) (tag x : Nat) : State.Reworks H s (s.collide h tag x) := by
  unfold State.collide
  refine .trans (t := s.setHwy { s.hwy with drives := s.hwy.drives.filter (fun d => !(d.handle == h)) })
    (.setHwy (.of_drives fun hd => by rw [hd]; rfl)) ?_
  dsimp only
  split
  · exact .refl _
  · split
    · exact .refl _
    · split
      · split
        · exact collideCarrying hh _ rfl
        · exact .refl _
      · split
        · exact collideNew hh _
        · split
          · exact .trans (abandonCellMove hh _ _) (collideCarrying hh _ rfl)
          · exact .refl _
      · exact .refl _

theorem driveCell (d : Drive) (hh : H d.handle) (x : Nat) (others noise : BitVec 42) :
    State.Reworks H s (s.driveCell d x others noise) := by
  have hout (c : Option CellOut) : State.Reworks H s (s.setHwy { s.hwy with cellOut := c }) :=
    .setHwy { Hwy.Kept.refl H s.silent s.hwy with }
  unfold State.driveCell
  dsimp only
  split
  · exact hout _
  · exact (hout _).trans (collide hh _ _)

end State.Reworks

end Sys2Proof.Machine

/-! ## Proofs: what boundaries rework, and the ranges of the fill context -/

namespace Sys2Proof.Machine

/-! ### The ranges of a fill context (R61, R62, R75) -/

namespace Fil

variable {k : Nat} {f : Fil}

theorem write_ok (hf : f.Ok k) (b : Byte) : (f.write k b).Ok k := by
  obtain ⟨hstore, hrest⟩ := hf
  unfold Fil.write
  split
  · exact ⟨by simp; omega, hrest⟩
  · exact ⟨hstore, hrest⟩

theorem writeAll_ok (hf : f.Ok k) (l : List Byte) : (f.writeAll k l).Ok k := by
  induction l generalizing f with
  | nil => exact hf
  | cons b l ih => exact ih (write_ok hf b)

theorem deliver_ok (hf : f.Ok k) (b : Byte) : (f.deliver k b).Ok k := by
  unfold Fil.deliver
  split
  · exact write_ok hf b
  · exact hf

theorem burst_ok (hf : f.Ok k) (l : List Byte) : (f.burst k l).Ok k := writeAll_ok hf f.inStage

theorem stageWrite_ok (hf : f.Ok k) : (f.stageWrite k).Ok k := by
  unfold Fil.stageWrite
  split
  · exact hf
  · rename_i b r _
    have hr : ({ f with inStage := r } : Fil).Ok k := hf
    exact write_ok hr b

theorem readOne_ok (hf : f.Ok k) : f.readOne.Ok k := by
  obtain ⟨hstore, hrest⟩ := hf
  unfold Fil.readOne
  split
  · exact ⟨hstore, hrest⟩
  · rename_i b r hs
    rw [hs, List.length_cons] at hstore
    exact ⟨by simp only; omega, hrest⟩

theorem readMany_ok (n : Nat) (hf : f.Ok k) : (f.readMany n).Ok k := by
  induction n generalizing f with
  | zero => exact hf
  | succ n ih => exact ih (readOne_ok hf)

theorem preset_ok (c : FilConsts) (lead : Nat) (hf : f.Ok k) : (f.preset c k lead).Ok k := by
  have hlen := Fil.preset_length c k lead f hf.1
  rw [Fil.preset_eq] at *
  exact ⟨hlen, hf.2⟩

theorem windowEnd_ok (hf : f.Ok k ∨ (f.store.length ≤ capacity k ∧ f.spacing ≤ 255 ∧ f.slips ≤ 65535 ∧
    ∀ o, f.forced = some o → o.steps ≤ o.limit)) : (f.windowEnd k).Ok k := by
  have hrest : f.store.length ≤ capacity k ∧ f.spacing ≤ 255 ∧ f.slips ≤ 65535 ∧
      ∀ o, f.forced = some o → o.steps ≤ o.limit := by
    rcases hf with ⟨hstore, hspacing, _, hslips, hforced⟩ | hf
    · exact ⟨hstore, hspacing, hslips, hforced⟩
    · exact hf
  obtain ⟨hstore, hspacing, hslips, hforced⟩ := hrest
  unfold Fil.windowEnd
  dsimp only
  split_ifs <;> exact ⟨hstore, hspacing, Nat.zero_lt_succ _, hslips, hforced⟩

theorem account_ok (r : Bool) (hf : f.Ok k) : (f.account k r).Ok k := by
  obtain ⟨hstore, hspacing, _, hslips, hforced⟩ := hf
  unfold Fil.account
  extract_lets sum g
  split
  · exact windowEnd_ok (.inr ⟨hstore, hspacing, hslips, hforced⟩)
  · rename_i hc
    exact ⟨hstore, hspacing, Nat.lt_of_not_le hc, hslips, hforced⟩

theorem centre_le_capacity (k : Nat) : centre k ≤ capacity k := Nat.div_le_self _ _

theorem recover_length (k : Nat) (f : Fil) : (f.recover k).store.length = centre k := by
  simp only [Fil.recover, List.length_append, List.length_drop, List.length_replicate]
  omega

theorem recover_ok (hf : f.Ok k) : (f.recover k).Ok k := by
  obtain ⟨_, hspacing, hcount, _, hforced⟩ := hf
  exact ⟨(recover_length k f).trans_le (centre_le_capacity k), hspacing, hcount, satInc_le _ _, hforced⟩

theorem endForced_ok (hf : f.Ok k) : f.endForced.Ok k := by
  obtain ⟨hstore, hspacing, hcount, hslips, _⟩ := hf
  unfold Fil.endForced
  split
  · exact ⟨hstore, hspacing, hcount, hslips, ‹_›⟩
  · exact ⟨hstore, hspacing, hcount, hslips, fun o ho => by simp at ho⟩

/-- An operation in progress is replaced by one within its limit. -/
theorem withForced_ok (hf : f.Ok k) {o : Forced} (ho : o.steps ≤ o.limit) : ({ f with forced := some o } : Fil).Ok k := by
  obtain ⟨hstore, hspacing, hcount, hslips, _⟩ := hf
  exact ⟨hstore, hspacing, hcount, hslips, fun o' ho' => by simp at ho'; exact ho' ▸ ho⟩

theorem recentre_ok (c : FilConsts) (o : Forced) (hf : f.Ok k) : (f.recentre c k o).fil.Ok k := by
  unfold Fil.recentre
  dsimp only
  split
  · exact hf
  · split
    · exact endForced_ok hf
    · split
      · exact withForced_ok hf ‹_›
      · exact endForced_ok hf

theorem nudge_ok (c : FilConsts) (o : Forced) (hf : f.Ok k) : (f.nudge c k o).fil.Ok k := by
  unfold Fil.nudge
  extract_lets d beyond g
  split_ifs with h1 h2 h3
  · exact hf
  · exact endForced_ok hf
  · exact withForced_ok hf (Nat.le_of_lt h3)
  · obtain ⟨hstore, hspacing, hcount, hslips, _⟩ := hf
    exact ⟨hstore, hspacing, hcount, hslips, fun o ho => by simp [Fil.endForced, g] at ho⟩

theorem choose_ok (c : FilConsts) (hf : f.Ok k) : (f.choose c k).fil.Ok k := by
  unfold Fil.choose
  split
  · exact hf
  · split
    · exact nudge_ok c _ hf
    · exact recentre_ok c _ hf

theorem settle_ok (hf : f.Ok k) : (f.settle k).1.Ok k := by
  unfold Fil.settle
  cases f.slipPending
  · simp only [Bool.false_eq_true, if_false]
    split
    · exact endForced_ok hf
    · exact hf
  · simp only [if_true]
    split
    · exact endForced_ok (endForced_ok (recover_ok hf))
    · exact endForced_ok (recover_ok hf)

theorem decide_ok (c : FilConsts) (hf : f.Ok k) : (f.decide c k).fil.Ok k := by
  have hset := settle_ok hf
  have hspaced : ({ (f.settle k).1 with spacing := satInc 255 (f.settle k).1.spacing } : Fil).Ok k :=
    ⟨hset.1, satInc_le _ _, hset.2.2⟩
  obtain ⟨hstore, hspacing, hrest⟩ := choose_ok c hspaced
  unfold Fil.decide
  refine account_ok _ ⟨hstore, ?_, hrest⟩
  dsimp only
  split
  · exact hspacing
  · exact Nat.zero_le _

end Fil

/-! ### Records -/

theorem joinCarry_length {q : List CarryEntry} (hq : q.length ≤ 2) (c : Content) (ds : List Debtor) :
    (joinCarry q c ds).length ≤ 2 := by
  unfold joinCarry
  split
  · exact hq
  · split <;> simp <;> omega

theorem takeCarry_length (d : Debtor) (q : List CarryEntry) : (takeCarry d q).2.length ≤ q.length := by
  induction q with
  | nil => exact Nat.le_refl _
  | cons e r ih =>
    unfold takeCarry
    dsimp only
    split_ifs
    · exact Nat.le_succ _
    · exact Nat.le_refl _
    · exact Nat.succ_le_succ ih

theorem keepDebtors_length (still : List Debtor) (q : List CarryEntry) : (keepDebtors still q).length ≤ q.length :=
  (List.length_filter_le _ _).trans (by simp)

namespace PathRec

theorem kept_mapFil (b : Bool) {p : PathRec} {g : Fil → Fil} (hg : ∀ f : Fil, f.Ok p.k → (g f).Ok p.k) :
    p.Kept b { p with fil := p.fil.map g } := by
  refine .of_fil (by simp) fun hok f hf => ?_
  obtain ⟨f', hf', rfl⟩ := Option.map_eq_some_iff.mp hf
  exact hg f' (hok f' hf')

theorem cleanBoundary_kept (b : Bool) (p : PathRec) : p.Kept b p.cleanBoundary := by
  unfold cleanBoundary SrcHw.cleanStep
  split
  · refine .of_hw (fun ha => ?_) fun _ => satInc_le _ _
    dsimp only
    split <;> omega
  · exact .refl _ _

theorem watchCell_kept (b : Bool) (x : Nat) (hd : Header) (p : PathRec) : p.Kept b (p.watchCell x hd) := by
  unfold watchCell
  split
  · exact .of_sk id id
  · exact .refl _ _

theorem squelchOnset_kept (b : Bool) (p : PathRec) : p.Kept b p.squelchOnset := by
  unfold squelchOnset
  split
  · exact .of_sq id
  · exact .refl _ _

theorem squelchBoundary_kept (b : Bool) (n : Nat) (p : PathRec) : p.Kept b (p.squelchBoundary n) := by
  have hquiet : (if p.sq.srcSeenMf then 0 else satInc 15 p.sq.quiet) ≤ 15 := by
    split
    · exact Nat.zero_le _
    · exact satInc_le _ _
  unfold squelchBoundary
  split
  · extract_lets _ q
    have hq : p.Kept b q := .of_sq fun _ => hquiet
    split
    · exact hq.trans (.of_sq id)
    · exact hq
  · exact .refl _ _

theorem sinkRaws_kept (b : Bool) (passed : BitVec 1024) (p : PathRec) : p.Kept b (p.sinkRaws passed) := by
  have hmiss (r n : Nat) (k : SnkHw) : (missUnpassed passed r n k).check = k.check ∧
      (missUnpassed passed r n k).loss = k.loss := by
    induction n with
    | zero => exact ⟨rfl, rfl⟩
    | succ n ih =>
      simp only [missUnpassed]
      split
      · exact ih
      · exact ih
  unfold sinkRaws
  split
  · dsimp only
    split
    · split
      · rename_i r _ _
        exact .of_sk (fun h => (hmiss r p.k p.sk).1.trans_le h) fun h => (hmiss r p.k p.sk).2.trans_le h
      · exact .of_sk id id
    · exact .of_sk id id
  · exact .of_sk id id

theorem watchFrame_kept (b awake : Bool) (n : Nat) (p : PathRec) : p.Kept b (p.watchFrame awake n) := .of_sk id id

theorem localEnable_kept (b : Bool) (p : PathRec) : p.Kept b p.localEnable := by
  unfold localEnable
  split
  · rename_i h
    exact { PathRec.Kept.refl b p with off := fun _ _ => PathRec.offHighway_of_loc h.1 }
  · exact .refl _ _

theorem restartMultiframe_kept (b : Bool) (p : PathRec) : p.Kept b p.restartMultiframe :=
  (PathRec.Kept.of_sk (p := p) (k := { p.sk with check := 0 }) (fun _ => Nat.zero_le _) id).trans
    (.of_hw (w := { p.hw with cleanRun := p.role == .source && p.live }) id id)

end PathRec

theorem Monitor.handle_of_isFor {m : Monitor} {h : Nat} (hm : m.isFor h = true) : ∃ b, m.info = some b ∧ b.handle = h := by
  unfold Monitor.isFor at hm
  split at hm
  · exact ⟨_, ‹_›, by simpa using hm⟩
  · simp at hm

theorem State.monitorOf_handle {s : State} {h n : Nat} {b : Bound} (hm : s.monitorOf h = some (.running b n)) :
    b.handle = h := by
  have hfor := List.find?_some hm
  simpa [Monitor.isFor, Monitor.info] using hfor

theorem bindMonitor_length (b : Bound) (l : List Monitor) : (bindMonitor b l).length = l.length := by
  induction l with
  | nil => rfl
  | cons m l ih => cases m <;> simp [bindMonitor, ih]

theorem mem_bindMonitor {b : Bound} {l : List Monitor} {m : Monitor} (hm : m ∈ bindMonitor b l) :
    m = .bound b ∨ m ∈ l := by
  induction l with
  | nil => simp [bindMonitor] at hm
  | cons x l ih =>
    cases x with
    | idle =>
      simp only [bindMonitor, List.mem_cons] at hm ⊢
      tauto
    | bound _ | running _ _ =>
      simp only [bindMonitor, List.mem_cons] at hm ⊢
      tauto

namespace State.Reworks

variable {H : Nat → Prop} {s : State} {h : Nat}

/-! ### Cells that are seen (R113, R119, R138, R142) -/

theorem seeCell (x : Nat) (line : BitVec 42) (payload : List Byte) :
    State.Reworks (fun _ => True) s (s.seeCell x line payload) := by
  unfold State.seeCell
  refine .trans ?_ (.mapPaths (fun _ => trivial) fun _ p _ => PathRec.examine_kept _ _ _ _ p)
  split
  · rename_i hd _
    have hwatch (u : State) : State.Reworks (fun _ => True) u
        (if u.mayCreate then u.mapPaths (fun _ p => p.watchCell x hd) else u) := by
      split
      · exact .mapPaths (fun _ => trivial) fun _ p _ => PathRec.watchCell_kept _ _ _ p
      · exact .refl _
    exact (withdrawHeard _ _ _).trans ((onRun _ _ _).trans (hwatch _))
  · exact onRun _ _ _

theorem execHighwayCell {x : Nat} {others noise : BitVec 42} {payload : List Byte} {t : State}
    (ht : execHighwayCell x others noise payload s = .next t) : State.Reworks (fun _ => True) s t := by
  unfold Machine.execHighwayCell at ht
  split at ht
  · cases ht
  · simp only [Host.Outcome.next.injEq] at ht
    subst ht
    refine .trans (t := s.setHwy { s.hwy with passed := s.hwy.passed ||| BitVec.twoPow 1024 x })
      (.setHwy { Hwy.Kept.refl _ s.silent s.hwy with }) ?_
    split
    · exact driveCell _ trivial _ _ _
    · exact seeCell _ _ _

theorem execSilentCellExpiry {x : Nat} {t : State} (ht : execSilentCellExpiry x s = .next t) :
    State.Reworks (fun _ => True) s t := by
  unfold Machine.execSilentCellExpiry at ht
  split at ht
  · cases ht
  · simp only [Host.Outcome.next.injEq] at ht
    exact ht ▸ onRun _ _ _

theorem execReservationAgeExpiry {x : Nat} {t : State} (ht : execReservationAgeExpiry x s = .next t) :
    State.Reworks (fun _ => True) s t := by
  unfold Machine.execReservationAgeExpiry at ht
  split at ht
  · cases ht
  · simp only [Host.Outcome.next.injEq] at ht
    exact ht ▸ onRun _ _ _

/-! ### Steps of a boundary on one record (R123 to R142) -/

theorem backoffStep (hh : H h) : State.Reworks H s (State.backoffStep h s) := by
  unfold State.backoffStep
  split
  · exact .refl s
  · split
    · exact .refl s
    · split
      · refine .trans ?_ (request_rests hh rfl)
        exact modHw hh fun _ => ⟨id, id⟩
      · exact modHw hh fun _ => ⟨id, id⟩

theorem failAtBoundary (hh : H h) (c : MoveCause) : State.Reworks H s (s.failAtBoundary h c) :=
  .trans (failCellMove hh c) (modHw hh fun _ => ⟨id, fun _ => Nat.zero_le _⟩)

theorem expireClaim (b : Bound) (hh : H b.handle) : State.Reworks H s (s.expireClaim b) := by
  unfold State.expireClaim
  refine (idleMonitors b.handle).trans ?_
  dsimp only
  split
  · exact .refl _
  · rename_i p _
    refine .trans (t := ((s.idleMonitors b.handle).sendRelease p b.first .withdrawn).freeRun b.first b.k)
      (.trans (sendRelease _ _ _) (onRun _ _ _)) ?_
    split
    · exact failAtBoundary hh _
    · refine .trans ?_ (.post _ _ hh)
      refine .trans ?_ (request_rests hh (by split <;> rfl))
      exact modHw hh fun _ => ⟨id, id⟩

theorem monitorStep (hh : H h) : State.Reworks H s (State.monitorStep h s) := by
  unfold State.monitorStep
  split
  · rename_i b n hm
    split
    · exact expireClaim b (State.monitorOf_handle hm ▸ hh)
    · refine .setHwy (.of_mons (fun m => ?_) rfl fun m g hg => ?_)
      · cases m with
        | idle | bound _ => exact Nat.le_max_left _ _
        | running c r =>
          dsimp only
          split
          · simp only [Monitor.remaining]; omega
          · exact Nat.le_max_left _ _
      · cases m with
        | idle | bound _ => exact hg
        | running c r =>
          dsimp only
          split <;> exact hg
  · exact .refl s

theorem sinkEffective (hh : H h) : State.Reworks H s (State.sinkEffective h s) := by
  unfold State.sinkEffective
  split
  · exact .refl s
  · split
    · refine .trans ?_ (.post _ _ hh)
      refine .trans ?_ (request_alike hh rfl)
      exact modSk hh fun _ => ⟨fun _ => Nat.zero_le _, fun _ => Nat.zero_le _⟩
    · exact .refl s

theorem claimEffective (hh : H h) : State.Reworks H s (State.claimEffective h s) := by
  unfold State.claimEffective
  split
  · exact .refl s
  · rename_i p _
    split
    · refine .trans ?_ (.post _ _ hh)
      refine .trans ?_ (request_alike hh rfl)
      refine .trans ?_ (modHw hh fun _ => ⟨id, fun _ => Nat.zero_le _⟩)
      split
      · exact holdRun _ _
      · exact .refl s
    · exact .refl s

theorem lossStep (hh : H h) : State.Reworks H s (State.lossStep h s) := by
  unfold State.lossStep
  split
  · exact .refl s
  · rename_i p hp
    split
    · split
      · split
        · exact .trans (sinkListens hh _) (.post _ _ hh)
        · rename_i hloss
          unfold State.modSk
          refine modPath hh fun q hq => .of_sk id fun _ => ?_
          rw [hp, Option.some.injEq] at hq
          subst hq
          dsimp only
          omega
      · exact modSk hh fun _ => ⟨id, fun _ => Nat.zero_le _⟩
    · exact .refl s

theorem adopt (hh : H h) : State.Reworks H s (State.adopt h s) := by
  unfold State.adopt
  split
  · exact .refl s
  · split
    · exact .refl s
    · rename_i x _
      split
      · rename_i hmay
        have hsk : State.Reworks H s (s.modSk h (fun k => { k.zeroed with cells := some x, watch := none })) :=
          modSk hh fun _ => ⟨fun _ => Nat.zero_le _, fun _ => Nat.zero_le _⟩
        refine .trans ?_ (.post _ _ hh)
        refine hsk.trans (request_awake hh ?_)
        rw [hsk.silent_eq, State.silent_eq_false_of_mayCreate hmay.2]
      · exact .refl s

theorem claimRun (hh : H h) (hs : s.silent = false) (p : PathRec) (x : Nat) (move : Bool) :
    State.Reworks H s (s.claimRun h p x move) := by
  unfold State.claimRun
  extract_lets u b _ v w
  have hu : State.Reworks H s u := send _
  have hv : State.Reworks H u v := by
    refine .setHwy { Hwy.Kept.refl H u.silent u.hwy with
      mons := bindMonitor_length _ _
      remaining := fun _ hm m hmem => ?_
      still := fun hsil => ?_
      unbound := fun g hg hm m hmem => ?_ }
    · rcases mem_bindMonitor hmem with rfl | hmem
      · exact Nat.zero_le _
      · exact hm m hmem
    · rw [hu.silent_eq, hs] at hsil
      cases hsil
    · rcases mem_bindMonitor hmem with rfl | hmem
      · simp only [Monitor.isFor, Monitor.info, beq_eq_false_iff_ne, ne_eq]
        rintro rfl
        exact hg hh
      · exact hm m hmem
  have hw : State.Reworks H s w := hu.trans (hv.trans (onRun _ _ _))
  split
  · exact hw.trans (modHw hh fun _ => ⟨id, id⟩)
  · have hclaim : State.Reworks H s (w.modHw h (fun k =>
        { k with cells := some x, refusal := if k.refusal = some .noCells then none else k.refusal })) :=
      hw.trans (modHw hh fun _ => ⟨id, id⟩)
    exact hclaim.trans (request_awake hh (hclaim.silent_eq.trans hs))

theorem chooseCells (hh : H h) : State.Reworks H s (State.chooseCells h s) := by
  unfold State.chooseCells
  split
  · exact .refl s
  · split
    · split
      · split
        · exact failAtBoundary hh _
        · exact modHw hh fun _ => ⟨id, id⟩
      · split
        · rename_i hroom
          exact claimRun hh (State.silent_eq_false_of_hasRoom hroom) _ _ _
        · exact .refl s
    · exact .refl s

/-! ### Fill control, carrier builders and the carry queue -/

theorem modFil {f : PathRec → Fil → Fil} (hh : H h)
    (hf : ∀ (p : PathRec) (g : Fil), g.Ok p.k → (f p g).Ok p.k) : State.Reworks H s (s.modFil h f) :=
  modPath hh fun p _ => PathRec.kept_mapFil _ (hf p)

theorem markPath (hh : H h) : State.Reworks H s (s.markPath h) := by
  rcases s.markPath_cases h with he | ⟨p, hp, _, he⟩ <;> rw [he]
  · exact .refl s
  · exact .setPath hh hp { PathRec.kept_mapFil s.silent (p := p) (g := fun f => { f with defectSeen := true })
      (fun _ hf => hf) with }

theorem capture (q t : Nat) : State.Reworks (fun _ => True) s (s.capture q t) := by
  unfold State.capture
  split
  · exact .refl s
  · exact modPath trivial fun p _ => PathRec.kept_mapFil _ fun _ hf => Fil.preset_ok _ _ hf

theorem carryJoin (hh : H h) (c : Content) : State.Reworks H s (s.carryJoin h c) :=
  modPath hh fun _ _ => .of_carry fun hq => joinCarry_length hq _ _

theorem settleDebts : State.Reworks (fun _ => True) s s.settleDebts :=
  .mapPaths (fun _ => trivial) fun _ _ _ => .of_carry fun hq => (keepDebtors_length _ _).trans hq

theorem sinkContent (hh : H h) : State.Reworks H s (State.sinkContent h s) := by
  unfold State.sinkContent
  split
  · exact .refl s
  · split
    · exact carryJoin hh _
    · exact .refl s

theorem handHighway (hh : H h) (p : PathRec) (bad : Bool) (c : Content) :
    State.Reworks H s (s.handHighway h p bad c) := by
  unfold State.handHighway
  dsimp only
  split
  · refine .trans (modPath hh (f := fun q => { q with hw := { q.hw with
      content := some (if bad then { code := .maintenance, bytes := [] } else c) } }) fun _ _ => .of_hw id id)
      (.setHwy ?_)
    rcases s.modPath_ptb h (fun q => { q with hw := { q.hw with
      content := some (if bad then { code := .maintenance, bytes := [] } else c) } }) with ⟨m, hm⟩
    rw [hm]
    exact .of_drives fun hd => by simpa using hd
  · exact modPath hh fun _ _ => .of_hw id id

end State.Reworks

end Sys2Proof.Machine

/-! ## Proofs: MUTE and the station state -/

namespace Sys2Proof.Machine

/-! ### HWY's and CBL's own operations leave the path table -/

@[simp] theorem State.send_ptb (s : State) (m : Msg) : (s.send m).ptb = s.ptb := by
  rcases s.send_cases m with ⟨_, he⟩ | ⟨_, _, he⟩ <;> rw [he]; rfl
@[simp] theorem State.unsend_ptb (s : State) (f : Msg → Bool) : (s.unsend f).ptb = s.ptb := rfl
@[simp] theorem State.unsendClaim_ptb (s : State) (t : Nat) : (s.unsendClaim t).ptb = s.ptb := rfl
@[simp] theorem State.unsendAccept_ptb (s : State) (t : Nat) (b : Bool) : (s.unsendAccept t b).ptb = s.ptb := rfl
@[simp] theorem State.onRun_ptb (s : State) (x k : Nat) (f : CellEntry → CellEntry) : (s.onRun x k f).ptb = s.ptb := rfl
@[simp] theorem State.freeRun_ptb (s : State) (x k : Nat) : (s.freeRun x k).ptb = s.ptb := rfl
@[simp] theorem State.holdRun_ptb (s : State) (x k : Nat) : (s.holdRun x k).ptb = s.ptb := rfl
@[simp] theorem State.freeOpt_ptb (s : State) (x : Option Nat) (k : Nat) : (s.freeOpt x k).ptb = s.ptb := by
  cases x <;> rfl
@[simp] theorem State.sendRelease_ptb (s : State) (p : PathRec) (x : Nat) (r : ReleaseReason) :
    (s.sendRelease p x r).ptb = s.ptb := s.send_ptb _
@[simp] theorem State.releaseOpt_ptb (s : State) (p : PathRec) (x : Option Nat) (r : ReleaseReason) :
    (s.releaseOpt p x r).ptb = s.ptb := by
  cases x
  · rfl
  · exact s.send_ptb _
@[simp] theorem State.idleMonitors_ptb (s : State) (h : Nat) : (s.idleMonitors h).ptb = s.ptb := rfl
@[simp] theorem State.setOwner_ptb (s : State) (c b k h : Nat) (r : BerthRole) : (s.setOwner c b k h r).ptb = s.ptb := rfl
@[simp] theorem State.clearOwner_ptb (s : State) (c b k : Nat) : (s.clearOwner c b k).ptb = s.ptb := rfl
@[simp] theorem State.applyMap_ptb (s : State) (m : Msg) : (s.applyMap m).ptb = s.ptb := by
  unfold State.applyMap
  dsimp only
  split_ifs <;> rfl

theorem State.path_congr {s t : State} (h : t.ptb = s.ptb) (g : Nat) : t.path g = s.path g := by
  simp only [State.path, h]

@[simp] theorem State.path_send (s : State) (m : Msg) (g : Nat) : (s.send m).path g = s.path g := path_congr (by simp) g
@[simp] theorem State.path_unsend (s : State) (f : Msg → Bool) (g : Nat) : (s.unsend f).path g = s.path g := rfl
@[simp] theorem State.path_unsendClaim (s : State) (t g : Nat) : (s.unsendClaim t).path g = s.path g := rfl
@[simp] theorem State.path_unsendAccept (s : State) (t : Nat) (b : Bool) (g : Nat) :
    (s.unsendAccept t b).path g = s.path g := rfl
@[simp] theorem State.path_onRun (s : State) (x k : Nat) (f : CellEntry → CellEntry) (g : Nat) :
    (s.onRun x k f).path g = s.path g := rfl
@[simp] theorem State.path_freeRun (s : State) (x k g : Nat) : (s.freeRun x k).path g = s.path g := rfl
@[simp] theorem State.path_holdRun (s : State) (x k g : Nat) : (s.holdRun x k).path g = s.path g := rfl
@[simp] theorem State.path_freeOpt (s : State) (x : Option Nat) (k g : Nat) : (s.freeOpt x k).path g = s.path g :=
  path_congr (by simp) g
@[simp] theorem State.path_sendRelease (s : State) (p : PathRec) (x : Nat) (r : ReleaseReason) (g : Nat) :
    (s.sendRelease p x r).path g = s.path g := path_congr (by simp) g
@[simp] theorem State.path_releaseOpt (s : State) (p : PathRec) (x : Option Nat) (r : ReleaseReason) (g : Nat) :
    (s.releaseOpt p x r).path g = s.path g := path_congr (by simp) g
@[simp] theorem State.path_idleMonitors (s : State) (h g : Nat) : (s.idleMonitors h).path g = s.path g := rfl
@[simp] theorem State.path_setOwner (s : State) (c b k h : Nat) (r : BerthRole) (g : Nat) :
    (s.setOwner c b k h r).path g = s.path g := rfl
@[simp] theorem State.path_clearOwner (s : State) (c b k g : Nat) : (s.clearOwner c b k).path g = s.path g := rfl
@[simp] theorem State.path_applyMap (s : State) (m : Msg) (g : Nat) : (s.applyMap m).path g = s.path g :=
  path_congr (by simp) g

/-! ### Records after the changes of their own fields -/

theorem State.path_modHw_self (s : State) (h : Nat) (f : SrcHw → SrcHw) :
    (s.modHw h f).path h = (s.path h).map (fun p => { p with hw := f p.hw }) := s.path_modPath_self h _

theorem State.path_modSk_self (s : State) (h : Nat) (f : SnkHw → SnkHw) :
    (s.modSk h f).path h = (s.path h).map (fun p => { p with sk := f p.sk }) := s.path_modPath_self h _

/-- A record found in its own state takes the new one. -/
theorem State.path_request_found {s : State} {h : Nat} {p : PathRec} (hp : s.path h = some p) (st : PState) :
    (s.request h p.state st).path h = some { p with state := st } := by
  rw [State.path_request_self, hp]
  simp

/-- A failed move of berths changes the fields of the move and of the completion alone. -/
theorem State.path_failBerthMove {s : State} {h : Nat} {p : PathRec} (hp : s.path h = some p) (c : MoveCause) :
    ∃ q, (s.failBerthMove h c).path h = some q ∧ p.SameIdentity q ∧ q.state = p.state ∧ q.hw = p.hw ∧ q.sk = p.sk := by
  simp only [State.failBerthMove, hp]
  split
  · exact ⟨p, hp, .refl p, rfl, rfl, rfl⟩
  · rename_i m _
    refine ⟨_, State.path_post_self (State.path_setPath_self _ _ _) _, ?_, ?_⟩
    · exact PathRec.posted_identity _ _ _
    · obtain ⟨_, _, _, hstate, hhw, hsk, _⟩ := PathRec.posted_fields
        { p with bmove := none, undo := if m.phase = .pending then none else some m }
        ((s.setPath h { p with bmove := none, undo := if m.phase = .pending then none else some m }).listed h)
        (.moveFailed c)
      exact ⟨hstate, hhw, hsk⟩

theorem State.path_cancelSinkMove {s : State} {h : Nat} {p : PathRec} (hp : s.path h = some p) :
    (s.cancelSinkMove h p).path h = some { p with sk := { p.sk with move := none } } := by
  unfold State.cancelSinkMove
  split
  · rename_i hm
    rw [hp, ← hm]
  · rw [State.path_modSk_self]
    split <;> simp [hp]

/-- What a sink becomes that leaves ACCEPTED, RECEIVING or MOVING (R132, R141, R144). -/
theorem State.path_sinkListens {s : State} {h : Nat} {p : PathRec} (hp : s.path h = some p) (c : MoveCause) :
    ∃ q, (s.sinkListens h c).path h = some q ∧ p.SameIdentity q ∧ q.state = .listening ∧ q.hw = p.hw ∧
      q.sk = p.sk.listening := by
  obtain ⟨q, hq, hident, _, hhw, hsk⟩ := State.path_failBerthMove hp c
  refine ⟨{ q with sk := q.sk.listening, state := .listening }, ?_, hident, rfl, hhw, hsk ▸ rfl⟩
  simp only [State.sinkListens, hq]
  have hcancel := State.path_cancelSinkMove hq
  set u := (s.failBerthMove h c).cancelSinkMove h q
  have hu : (if q.sk.status = some .queued then u.unsendAccept q.tag false else u).path h =
      some { q with sk := { q.sk with move := none } } := by
    split <;> exact hcancel
  exact State.path_request_found (p := { q with sk := q.sk.listening }) (by rw [State.path_modSk_self, hu]; rfl) .listening

/-! ### MUTE (R102, R144) -/

theorem State.mutePath_reworks (h : Nat) (s : State) : State.Reworks (· = h) s (State.mutePath h s) := .mutePath rfl

/-- A SOURCE record that takes part on the highway under MUTE, before its completion. -/
def State.muteSource (s : State) (h : Nat) (p : PathRec) : State :=
  (((s.freeOpt p.hw.cells p.k).freeOpt p.newRun p.k).modHw h SrcHw.muted).request h p.state .waiting

theorem State.mutePath_source {s : State} {h : Nat} {p : PathRec} (hp : s.path h = some p) (hr : p.role = .source) :
    State.mutePath h s = if p.offHighway then s else
      if p.hw.move.isSome then (s.muteSource h p).post h (.moveFailed .mute) else s.muteSource h p := by
  simp only [State.mutePath, hp, hr, PathRec.offHighway]
  cases hst : p.state <;> simp [State.muteSource, hst] <;> rfl

theorem State.mutePath_sink {s : State} {h : Nat} {p : PathRec} (hp : s.path h = some p) (hr : p.role = .sink) :
    State.mutePath h s = if p.offHighway then s.modSk h (fun k => { k with watch := none }) else s.sinkListens h .mute := by
  simp only [State.mutePath, hp, hr, PathRec.offHighway]
  cases p.state <;> simp

theorem PathRec.muted_loc {p q : PathRec} (hr : p.role = .loc) : p.muted q ↔ q = p := by
  unfold PathRec.muted
  rw [hr]
  exact ⟨fun h => h.2.2, by rintro rfl; exact ⟨rfl, hr, rfl⟩⟩

theorem PathRec.muted_source {p q : PathRec} (hr : p.role = .source) : p.muted q ↔
    q.tag = p.tag ∧ q.role = .source ∧ if p.offHighway then q = p else q.state = .waiting ∧ q.hw = p.hw.muted := by
  unfold PathRec.muted
  rw [hr]

theorem PathRec.muted_sink {p q : PathRec} (hr : p.role = .sink) : p.muted q ↔
    q.tag = p.tag ∧ q.role = .sink ∧ if p.offHighway then q = { p with sk := { p.sk with watch := none } }
      else q.state = .listening ∧ q.sk = p.sk.listening := by
  unfold PathRec.muted
  rw [hr]

/-- What MUTE makes of one record. -/
theorem State.path_mutePath {s : State} {h : Nat} {p : PathRec} (hp : s.path h = some p) :
    ∃ q, (State.mutePath h s).path h = some q ∧ p.muted q := by
  cases hrole : p.role with
  | loc => exact ⟨p, by simp [State.mutePath, hp, hrole], (PathRec.muted_loc hrole).mpr rfl⟩
  | source =>
    have hpath : (s.muteSource h p).path h = some { p with hw := p.hw.muted, state := .waiting } :=
      State.path_request_found (p := { p with hw := p.hw.muted }) (by simp [State.path_modHw_self, hp]) _
    rw [State.mutePath_source hp hrole]
    simp only [PathRec.muted_source hrole]
    split
    · exact ⟨p, hp, rfl, hrole, rfl⟩
    · split
      · obtain ⟨htag, hr, _, hstate, hhw, _⟩ := PathRec.posted_fields { p with hw := p.hw.muted, state := .waiting }
          ((s.muteSource h p).listed h) (.moveFailed .mute)
        exact ⟨_, State.path_post_self hpath _, htag, hr.trans hrole, hstate, hhw⟩
      · exact ⟨_, hpath, rfl, hrole, rfl, rfl⟩
  | sink =>
    rw [State.mutePath_sink hp hrole]
    simp only [PathRec.muted_sink hrole]
    split
    · exact ⟨{ p with sk := { p.sk with watch := none } }, by rw [State.path_modSk_self, hp]; rfl, rfl, hrole, rfl⟩
    · obtain ⟨q, hq, ⟨htag, hr, _⟩, hstate, _, hsk⟩ := State.path_sinkListens hp .mute
      exact ⟨q, hq, htag, hr.trans hrole, hstate, hsk⟩

theorem PathRec.offHighway_of_muted {p q : PathRec} (h : p.muted q) : q.offHighway = true := by
  cases hp : p.role with
  | loc => rw [(PathRec.muted_loc hp).mp h, PathRec.offHighway_of_loc hp]
  | source =>
    obtain ⟨_, hrole, hmatch⟩ := (PathRec.muted_source hp).mp h
    split at hmatch
    · rwa [hmatch]
    · exact PathRec.offHighway_of_rests (by rw [hmatch.1]; rfl)
  | sink =>
    obtain ⟨_, hrole, hmatch⟩ := (PathRec.muted_sink hp).mp h
    split at hmatch
    · rwa [hmatch]
    · exact PathRec.offHighway_of_rests (by rw [hmatch.1]; rfl)

/-- A record that MUTE has reached is left as it is by MUTE. -/
theorem PathRec.muted_trans {p q r : PathRec} (h : p.muted q) (h' : q.muted r) : p.muted r := by
  have hoff := PathRec.offHighway_of_muted h
  cases hp : p.role with
  | loc =>
    have hq := (PathRec.muted_loc hp).mp h
    rwa [hq] at h'
  | source =>
    obtain ⟨_, hrole, _⟩ := (PathRec.muted_source hp).mp h
    have hr := ((PathRec.muted_source hrole).mp h').2.2
    rw [if_pos hoff] at hr
    rwa [hr]
  | sink =>
    obtain ⟨htag, hrole, hmatch⟩ := (PathRec.muted_sink hp).mp h
    have hr := ((PathRec.muted_sink hrole).mp h').2.2
    rw [if_pos hoff] at hr
    rw [PathRec.muted_sink hp, hr]
    refine ⟨htag, hrole, ?_⟩
    split at hmatch
    · rw [if_pos ‹_›, hmatch]
    · rw [if_neg ‹_›]
      exact ⟨hmatch.1, by rw [hmatch.2]; rfl⟩

/-- MUTE reaches every record in use. -/
theorem State.path_foldl_mutePath (l : List Nat) (s : State) {h : Nat} {p : PathRec} (hp : s.path h = some p) :
    ∃ q, (l.foldl (fun s h => State.mutePath h s) s).path h = some q ∧ (q = p ∧ h ∉ l ∨ p.muted q) := by
  induction l generalizing s p with
  | nil => exact ⟨p, hp, .inl ⟨rfl, List.not_mem_nil⟩⟩
  | cons g l ih =>
    by_cases hg : h = g
    · subst hg
      obtain ⟨q, hq, hmuted⟩ := State.path_mutePath hp
      obtain ⟨r, hr, (⟨rfl, _⟩ | hmuted')⟩ := ih _ hq
      · exact ⟨r, hr, .inr hmuted⟩
      · exact ⟨r, hr, .inr (PathRec.muted_trans hmuted hmuted')⟩
    · have hp' : (State.mutePath g s).path h = some p := by
        rw [(State.Reworks.mutePath (H := (· = g)) rfl).path_eq hg, hp]
      obtain ⟨q, hq, hcase⟩ := ih _ hp'
      exact ⟨q, hq, hcase.imp_left fun ⟨he, hl⟩ => ⟨he, by simp [hg, hl]⟩⟩

theorem State.mem_handles_of_path {s : State} {h : Nat} {p : PathRec} (hp : s.path h = some p) : h ∈ s.handles :=
  List.mem_map.mpr ⟨_, Sparse.mem_of_find hp, rfl⟩

/-- A WARMING or JOINED station that takes a MUTE request, before its records are changed. -/
def State.cut (s : State) : State :=
  s.setHwy { s.hwy with doubt := true, station := .mute, drives := [], sendQ := [], mons := [.idle, .idle] }

theorem State.mute_of_silent {s : State} (hs : s.silent = true) : s.mute = s.setHwy { s.hwy with doubt := true } := by
  unfold State.mute
  have : s.mayCreate = false := by
    by_contra hc
    rw [State.silent_eq_false_of_mayCreate (by simpa using hc)] at hs
    cases hs
  exact if_neg (by simpa [State.mayCreate] using this)

theorem State.mayCreate_of_awake {s : State} (hs : s.silent = false) : s.mayCreate = true := by
  unfold State.silent State.mayCreate at *
  cases hst : s.hwy.station <;> simp_all

theorem State.mute_of_awake {s : State} (hs : s.silent = false) : s.mute = s.cut.forPaths State.mutePath := by
  have := State.mayCreate_of_awake hs
  unfold State.mute
  exact if_pos (by simpa [State.mayCreate] using this)

theorem State.mute_reworks (s : State) : State.Reworks (fun _ => True) s.cut (s.cut.forPaths State.mutePath) :=
  .forPaths (fun _ _ => .mutePath rfl) _

/-- Every record after a MUTE request that a WARMING or JOINED station has taken. -/
theorem State.path_mute {s : State} (hs : s.silent = false) {h : Nat} {p : PathRec} (hp : s.path h = some p) :
    ∃ q, s.mute.path h = some q ∧ p.muted q := by
  rw [State.mute_of_awake hs]
  obtain ⟨q, hq, (⟨_, hl⟩ | hmuted)⟩ := State.path_foldl_mutePath s.cut.handles s.cut (p := p) hp
  · exact absurd (State.mem_handles_of_path hp) hl
  · exact ⟨q, hq, hmuted⟩

end Sys2Proof.Machine

/-! ## Proofs: what the blocks' own operations keep -/

namespace Sys2Proof.Machine

namespace State.Keeps

variable {s : State}

/-! ### The station state -/

theorem setDoubt (s : State) (b : Bool) : s.Keeps (s.setHwy { s.hwy with doubt := b }) :=
  ⟨⟨id, id, id, id, fun _ _ => id, fun _ => id, fun _ => id⟩, fun _ => .of_path_eq fun _ => rfl⟩

/-- A station that is not UNSTARTED changes its state: it holds no message and no claim where it becomes MUTE, and leaves
JOINED only where it drives nothing. -/
theorem setStation {st : Station} {w : Nat} (hst : s.hwy.station ≠ .unstarted) (h : st = .warming ∨ st = .joined)
    (hw : w ≤ 2) (hd : s.hwy.station = .joined → st = .joined) :
    s.Keeps (s.setHwy { s.hwy with station := st, warm := w }) := by
  have hawake : (s.setHwy { s.hwy with station := st, warm := w }).silent = false := by
    rcases h with rfl | rfl <;> rfl
  refine ⟨⟨?_, id, id, ?_, fun _ _ _ hs => ?_, fun _ => id, fun _ => id⟩, fun _ => .of_path_eq fun _ => rfl⟩
  · rintro ⟨h1, h2, h3, h4, h5, h6, h7, _, hrest⟩
    exact ⟨h1, h2, h3, h4, h5, h6, h7, hw, hrest⟩
  · rintro ⟨hstarted, hnum, _, hdrives⟩
    refine ⟨⟨fun _ => ?_, fun _ => hstarted.mpr hst⟩, hnum, fun hs => ?_, fun hne => hd (hdrives hne)⟩
    · rcases h with rfl | rfl <;> simp
    · rw [hawake] at hs; cases hs
  · rw [hawake] at hs; cases hs

theorem muteRequest (s : State) : s.Keeps s.mute := by
  cases hs : s.silent with
  | true => rw [State.mute_of_silent hs]; exact .setDoubt s true
  | false =>
    have hr := s.mute_reworks
    have hk := hr.keeps
    have hblocks := hr.sameBlocks
    rw [State.mute_of_awake hs]
    have hne : s.hwy.station ≠ .unstarted := fun he => by simp [State.silent, he] at hs
    refine ⟨⟨?_, hk.port, hk.tables, ?_, fun _ _ _ _ h q hq => ?_, hk.completions, hk.paths⟩, hk.identity⟩
    · rintro ⟨h1, h2, h3, h4, h5, h6, h7, hw, _, _, hmsg, h8, h9, h10, h11, h12, h13, h14, htime, _⟩
      exact hk.bounded ⟨h1, h2, h3, h4, h5, h6, h7, hw, Nat.zero_le _, rfl, hmsg, h8, h9, h10, h11, h12, h13, h14,
        htime, by simp [State.cut, Monitor.remaining]⟩
    · rintro ⟨hstarted, hnum, _, _⟩
      exact hk.station ⟨⟨fun _ => by simp [State.cut], fun _ => hstarted.mpr hne⟩, hnum,
        fun _ => ⟨rfl, by simp [State.cut]⟩, fun hd => absurd rfl hd⟩
    · have hsome := hr.isSome_path h
      rw [hq] at hsome
      obtain ⟨p, hp⟩ := Option.isSome_iff_exists.mp hsome.symm
      obtain ⟨r, hr', hmuted⟩ := State.path_mute hs hp
      rw [State.mute_of_awake hs, hq, Option.some.injEq] at hr'
      exact hr' ▸ PathRec.offHighway_of_muted hmuted

theorem timingRestored (s : State) : s.Keeps s.timingRestored := by
  unfold State.timingRestored
  split
  · rename_i hst
    exact (setDoubt s false).trans
      (setStation (s := s.setHwy { s.hwy with doubt := false }) (w := 0) (by simp [hst]) (.inl rfl) (Nat.zero_le _)
        (by simp [hst]))
  · exact .setDoubt s false

/-! ### The frame timer, client ports and carriers -/

end State.Keeps

/-- The counts of the frame timer keep within their ranges (R2). -/
def Ftm.Ranged (f : Ftm) : Prop :=
  f.frame < 16 ∧ f.mfCount < 65536 ∧ f.miss < 3 ∧ f.good < 8 ∧ f.mismatch ≤ 2 ∧ f.entries ≤ 65535 ∧ f.realigns ≤ 65535

theorem State.Bounded.ftm {s : State} (h : s.Bounded) : s.ftm.Ranged := by
  obtain ⟨h1, h2, h3, h4, h5, h6, h7, _⟩ := h
  exact ⟨h1, h2, h3, h4, h5, h6, h7⟩

theorem State.Bounded.rx {s : State} (h : s.Bounded) (p : Nat) : (s.rx p).Ok := by
  obtain ⟨_, _, _, _, _, _, _, _, _, _, _, _, _, _, hrx, _⟩ := h
  unfold State.rx Sparse.get
  cases hf : Sparse.find s.clp.rx p with
  | none => exact ⟨by decide, by decide, by decide⟩
  | some r => exact hrx _ (Sparse.mem_of_find hf)

theorem State.Bounded.carrier {s : State} (h : s.Bounded) (c : Nat) : (s.carrier c).Ok := by
  obtain ⟨_, _, _, _, _, _, _, _, _, _, _, _, _, _, _, hcar, _⟩ := h
  unfold State.carrier Sparse.get
  cases hf : Sparse.find s.crx.carriers c with
  | none => exact ⟨by decide, by decide, by decide, by decide⟩
  | some r => exact hcar _ (Sparse.mem_of_find hf)

namespace State.Keeps

variable {s : State}

theorem setFtm {f : Ftm} (h : s.ftm.Ranged → f.Ranged) : s.Keeps (s.setFtm f) := by
  refine ⟨⟨fun hb => ?_, id, id, id, fun _ _ => id, fun _ => id, fun _ => id⟩, fun _ => .of_path_eq fun _ => rfl⟩
  obtain ⟨h1, h2, h3, h4, h5, h6, h7⟩ := h hb.ftm
  obtain ⟨_, _, _, _, _, _, _, hrest⟩ := hb
  exact ⟨h1, h2, h3, h4, h5, h6, h7, hrest⟩

theorem setRx {p : Nat} {r : RxSide} (h : (s.rx p).Ok → r.Ok) : s.Keeps (s.setRx p r) := by
  refine ⟨⟨fun hb => ?_, id, ?_, id, fun _ _ => id, fun _ => id, fun _ => id⟩, fun _ => .of_path_eq fun _ => rfl⟩
  · have hr := h (hb.rx p)
    obtain ⟨h1, h2, h3, h4, h5, h6, h7, h8, h9, h10, h11, h12, h13, h14, hrx, hrest⟩ := hb
    refine ⟨h1, h2, h3, h4, h5, h6, h7, h8, h9, h10, h11, h12, h13, h14, fun e he => ?_, hrest⟩
    rcases Sparse.mem_put he with rfl | he
    · exact hr
    · exact hrx e he
  · rintro ⟨h1, h2, h3, h4, hrx, hrest⟩
    exact ⟨h1, h2, h3, h4, Sparse.wf_put _ _ _ _ hrx, hrest⟩

theorem setTx (s : State) (p : Nat) (t : TxSide) : s.Keeps (s.setTx p t) := by
  refine ⟨⟨id, id, ?_, id, fun _ _ => id, fun _ => id, fun _ => id⟩, fun _ => .of_path_eq fun _ => rfl⟩
  rintro ⟨h1, h2, h3, h4, hrx, htx, hrest⟩
  exact ⟨h1, h2, h3, h4, hrx, Sparse.wf_put _ _ _ _ htx, hrest⟩

theorem setSizing (s : State) (z : BitVec 8) : s.Keeps (s.setClp { s.clp with sizing := z }) :=
  ⟨⟨id, id, id, id, fun _ _ => id, fun _ => id, fun _ => id⟩, fun _ => .of_path_eq fun _ => rfl⟩

theorem putRx {p : Nat} {r : RxSide} (h : (s.rx p).Ok → r.Ok) : s.Keeps (s.putRx p r) := setRx h

theorem setCarrier {c : Nat} {r : Carrier} (h : (s.carrier c).Ok → r.Ok) : s.Keeps (s.setCarrier c r) := by
  refine ⟨⟨fun hb => ?_, id, ?_, id, fun _ _ => id, fun _ => id, fun _ => id⟩, fun _ => .of_path_eq fun _ => rfl⟩
  · have hr := h (hb.carrier c)
    obtain ⟨h1, h2, h3, h4, h5, h6, h7, h8, h9, h10, h11, h12, h13, h14, hrx, hcar, hrest⟩ := hb
    refine ⟨h1, h2, h3, h4, h5, h6, h7, h8, h9, h10, h11, h12, h13, h14, hrx, fun e he => ?_, hrest⟩
    rcases Sparse.mem_put he with rfl | he
    · exact hr
    · exact hcar e he
  · rintro ⟨h1, h2, h3, h4, hrx, htx, hcar, hrest⟩
    exact ⟨h1, h2, h3, h4, hrx, htx, Sparse.wf_put _ _ _ _ hcar, hrest⟩

theorem putCarrier {c : Nat} {r : Carrier} (h : (s.carrier c).Ok → r.Ok) : s.Keeps (s.putCarrier c r) := setCarrier h

theorem setFeed (s : State) (c : Nat) (l : List FeedEntry) : s.Keeps (s.setFeed c l) := by
  refine ⟨⟨id, id, ?_, id, fun _ _ => id, fun _ => id, fun _ => id⟩, fun _ => .of_path_eq fun _ => rfl⟩
  rintro ⟨h1, h2, h3, hfeeds, hrest⟩
  exact ⟨h1, h2, h3, Sparse.wf_put _ _ _ _ hfeeds, hrest⟩

theorem setFil (s : State) (x : FilConsts) : s.Keeps (s.setFil x) :=
  ⟨⟨id, id, id, id, fun _ _ => id, fun _ => id, fun _ => id⟩, fun _ => .of_path_eq fun _ => rfl⟩

end State.Keeps

/-! ### The condition monitor -/

/-- A change of CND that keeps its counters and its queue in range and its tables in form. -/
structure Cnd.Kept (c d : Cnd) : Prop where
  queue : c.queue.length ≤ 64 → d.queue.length ≤ 64
  dropped : (∀ r ∈ c.queue, r.dropped ≤ 127) → ∀ r ∈ d.queue, r.dropped ≤ 127
  counters : (∀ e ∈ c.insts, e.2.soak ≤ 72 ∧ e.2.rep ≤ 72) → ∀ e ∈ d.insts, e.2.soak ≤ 72 ∧ e.2.rep ≤ 72
  insts : Sparse.rising c.insts = true → Sparse.rising d.insts = true
  settings : Sparse.rising c.settings = true → Sparse.rising d.settings = true

namespace Cnd.Kept

theorem refl (c : Cnd) : c.Kept c := ⟨id, id, id, id, id⟩

theorem trans {c d e : Cnd} (h : c.Kept d) (h' : d.Kept e) : c.Kept e :=
  ⟨h'.queue ∘ h.queue, h'.dropped ∘ h.dropped, h'.counters ∘ h.counters, h'.insts ∘ h.insts, h'.settings ∘ h.settings⟩

theorem foldl {α : Type} {f : Cnd → α → Cnd} (hf : ∀ (d : Cnd) a, d.Kept (f d a)) (l : List α) (c : Cnd) :
    c.Kept (l.foldl f c) := by
  induction l generalizing c with
  | nil => exact refl c
  | cons a l ih => exact (hf c a).trans (ih _)

end Cnd.Kept

theorem mem_markTail {l : List CondRec} {r : CondRec} (hr : r ∈ markTail l) :
    r ∈ l ∨ ∃ r' ∈ l, r = { r' with overflow := true, dropped := satInc 127 r'.dropped } := by
  induction l with
  | nil => simp [markTail] at hr
  | cons a l ih =>
    cases l with
    | nil => exact .inr ⟨a, by simp, by simpa [markTail] using hr⟩
    | cons b l =>
      simp only [markTail, List.mem_cons] at hr
      rcases hr with rfl | hr
      · exact .inl (by simp)
      · rcases ih hr with hmem | ⟨r', hmem, rfl⟩
        · exact .inl (List.mem_cons_of_mem _ hmem)
        · exact .inr ⟨r', List.mem_cons_of_mem _ hmem, rfl⟩

theorem Cnd.offer_kept (c : Cnd) {r : CondRec} (hr : r.dropped = 0) : c.Kept (c.offer r) := by
  obtain ⟨hinsts, hsettings, _⟩ := c.offer_rest r
  refine ⟨c.offer_length r, fun hd x hx => ?_, by rw [hinsts]; exact id, by rw [hinsts]; exact id,
    by rw [hsettings]; exact id⟩
  unfold Cnd.offer at hx
  split at hx
  · exact hd x hx
  · split at hx
    · rcases List.mem_append.mp hx with hx | hx
      · exact hd x hx
      · rw [List.mem_singleton.mp hx, hr]; exact Nat.zero_le _
    · rcases mem_markTail hx with hx | ⟨x', _, rfl⟩
      · exact hd x hx
      · exact satInc_le _ _

theorem Cnd.edge_kept (c : Cnd) (i : Inst) (e : Edge) (mf : Nat) : c.Kept (c.edge i e mf) := by
  unfold Cnd.edge
  split
  · exact c.offer_kept rfl
  · exact .refl c

theorem Inst.update_ranged (st : Setting) (i : Inst) : (i.update st).1.soak ≤ 72 ∧ (i.rep ≤ 72 → (i.update st).1.rep ≤ 72) := by
  unfold Inst.update
  split
  · exact ⟨Nat.zero_le _, fun _ => Nat.zero_le _⟩
  · extract_lets j
    have hj : j.soak ≤ 72 := by
      simp only [j]
      split
      · exact Nat.zero_le _
      · exact satInc_le _ _
    split
    · unfold Inst.repeatStep
      split
      · exact ⟨hj, fun _ => Nat.zero_le _⟩
      · exact ⟨hj, fun _ => satInc_le _ _⟩
    · exact ⟨hj, id⟩

theorem Cnd.mapInsts_kept (c : Cnd) {f : Nat → Inst → Inst}
    (hf : ∀ n i, i.soak ≤ 72 ∧ i.rep ≤ 72 → (f n i).soak ≤ 72 ∧ (f n i).rep ≤ 72) :
    c.Kept { c with insts := Sparse.mapVals f c.insts } := by
  refine ⟨id, id, fun hc e he => ?_, Sparse.rising_mapVals _ _, id⟩
  obtain ⟨e', he', rfl⟩ := List.mem_map.mp he
  exact hf _ _ (hc e' he')

theorem Cnd.boundary_kept (c : Cnd) (mf : Nat) : c.Kept (c.boundary mf) := by
  refine (c.mapInsts_kept fun _ i hi => ?_).trans (.foldl (fun d e => ?_) _ _)
  · have := i.update_ranged (c.setting i.kind)
    exact ⟨this.1, this.2 hi.2⟩
  · split
    · exact d.edge_kept _ _ _
    · exact .refl d

theorem Cnd.resume_kept (c : Cnd) (mf : Nat) : c.Kept (c.resume mf) := by
  have hempty : c.Kept { c with quiet := false, queue := [] } :=
    ⟨fun _ => Nat.zero_le _, by simp, id, id, id⟩
  refine hempty.trans (.foldl (fun d e => ?_) _ _)
  split
  · exact d.offer_kept rfl
  · exact .refl d

theorem Cnd.setInst_kept (c : Cnd) (k : Nat) {i : Inst} (hi : (∀ e ∈ c.insts, e.2.soak ≤ 72 ∧ e.2.rep ≤ 72) →
    i.soak ≤ 72 ∧ i.rep ≤ 72) : c.Kept { c with insts := Sparse.insert c.insts k i } := by
  refine ⟨id, id, fun hc e he => ?_, Sparse.rising_insert _ _ _, id⟩
  rcases Sparse.mem_insert he with rfl | he
  · exact hi hc
  · exact hc e he

theorem Cnd.addInsts_kept (c : Cnd) (l : List (CondKind × CondObj)) : c.Kept (c.addInsts l) := by
  induction l generalizing c with
  | nil => exact .refl c
  | cons a l ih =>
    exact (c.setInst_kept (condKey a.1 a.2) (i := Inst.init a.1 a.2) fun _ => ⟨Nat.zero_le _, Nat.zero_le _⟩).trans
      (ih _)

theorem Cnd.dropInsts_kept (c : Cnd) (o : CondObj) : c.Kept (c.dropInsts o) :=
  ⟨id, id, fun hc e he => hc e (List.mem_of_mem_filter he), Sparse.rising_filter _ _, id⟩

namespace State.Keeps

variable {s : State}

theorem setCnd {c : Cnd} (hk : s.cnd.Kept c) : s.Keeps (s.setCnd c) := by
  refine ⟨⟨?_, id, ?_, id, fun _ _ => id, fun _ => id, fun _ => id⟩, fun _ => .of_path_eq fun _ => rfl⟩
  · rintro ⟨h1, h2, h3, h4, h5, h6, h7, h8, h9, h10, h11, hq, h12, h13, h14, h15, hc, hd, hrest⟩
    exact ⟨h1, h2, h3, h4, h5, h6, h7, h8, h9, h10, h11, hk.queue hq, h12, h13, h14, h15, hk.counters hc, hk.dropped hd,
      hrest⟩
  · rintro ⟨h1, h2, h3, h4, h5, h6, h7, h8, h9, hi, hset, hrest⟩
    exact ⟨h1, h2, h3, h4, h5, h6, h7, h8, h9, hk.insts hi, hk.settings hset, hrest⟩

theorem event (s : State) (k : CondKind) (o : CondObj) : s.Keeps (s.event k o) := by
  unfold State.event
  split
  · exact .refl s
  · exact .setCnd (s.cnd.offer_kept rfl)

theorem sampleFrame (s : State) : s.Keeps s.sampleFrame := .setCnd (s.cnd.mapInsts_kept fun _ _ => id)

end State.Keeps

end Sys2Proof.Machine

/-! ## Proofs: what the command port, the scan and the receive sides keep -/

namespace Sys2Proof.Machine

theorem Scan.result_ne_nil (t : Term) (sc : Scan) : sc.result t ≠ [] := by
  simp [Scan.result, scanResult]

namespace State.Keeps

variable {s : State}

/-! ### The command port -/

theorem ite {c : Prop} [Decidable c] {t : State} (h : c → s.Keeps t) : s.Keeps (if c then t else s) := by
  split
  · exact h ‹_›
  · exact .refl s

/-- A change of CMD that keeps what START gave, the room of its FIFOs and the port's agreement. -/
theorem setCmd {c : Cmd} (hstarted : c.started = s.cmd.started)
    (hin : s.cmd.inFifo.length ≤ 16 → c.inFifo.length ≤ 16) (hout : s.cmd.outFifo.length ≤ 16 → c.outFifo.length ≤ 16)
    (hport : s.PortOk → (s.setCmd c).PortOk) : s.Keeps (s.setCmd c) := by
  refine ⟨⟨?_, hport, id, ?_, fun _ _ => id, fun _ => id, fun _ => id⟩, fun _ => .of_path_eq fun _ => rfl⟩
  · rintro ⟨h1, h2, h3, h4, h5, h6, h7, h8, h9, h10, h11, h12, hi, ho, hrest⟩
    exact ⟨h1, h2, h3, h4, h5, h6, h7, h8, h9, h10, h11, h12, hin hi, hout ho, hrest⟩
  · rintro ⟨h1, h2, hrest⟩
    exact ⟨hstarted ▸ h1, hstarted ▸ h2, hrest⟩

/-- The phase, the result and the command in progress are as they were: the port still agrees. -/
theorem setInFifo {l : List Byte} (hl : s.cmd.inFifo.length ≤ 16 → l.length ≤ 16) :
    s.Keeps (s.setCmd { s.cmd with inFifo := l }) := .setCmd rfl hl id id

theorem stage_outFifo_length (l : List Byte) (w : Bool) (c : Cmd) : (c.stage l w).outFifo.length ≤ 16 := by
  simp only [Cmd.stage, List.length_take]
  omega

theorem take_ne_nil {l : List Byte} (hl : l ≠ []) : l.take 16 ≠ [] := by
  simp [hl]

theorem answer {l : List Byte} (hx : s.cmd.phase ≠ .execution) (hl : l ≠ []) : s.Keeps (s.answer l) := by
  refine .setCmd rfl id (fun _ => stage_outFifo_length l false s.cmd) ?_
  rintro ⟨hscan, _⟩
  have hnone : s.crx.scan.isSome = false := by
    rw [← Bool.not_eq_true, ← hscan]
    exact hx
  simp only [State.PortOk, Cmd.stage, State.setCmd_cmd, State.setCmd_crx, hnone]
  simp [hl]

theorem answerCode (hx : s.cmd.phase ≠ .execution) (t : Term) : s.Keeps (s.answerCode t) := answer hx (by simp)

theorem thenAnswer {u : State} {l : List Byte} (hk : s.Keeps u) (hx : u.cmd.phase ≠ .execution) (hl : l ≠ []) :
    s.Keeps (u.answer l) := hk.trans (answer hx hl)

theorem thenCode {u : State} {t : Term} (hk : s.Keeps u) (hx : u.cmd.phase ≠ .execution) :
    s.Keeps (u.answerCode t) := hk.trans (answerCode hx t)

/-- A result is discarded, or a command begins: nothing is staged. -/
theorem discard (hx : s.PortOk → s.cmd.phase ≠ .execution) : s.Keeps (s.setCmd s.cmd.discard) := by
  refine .setCmd rfl id (fun _ => Nat.zero_le _) fun hport => ?_
  have hnone : s.crx.scan.isSome = false := by
    rw [← Bool.not_eq_true, ← hport.1]
    exact hx hport
  simp [State.PortOk, Cmd.discard, hnone]

theorem setInProgress {x : Option (Nat × List Byte)} (hx : s.cmd.phase = .command) :
    s.Keeps (s.setCmd { s.cmd with inProgress := x }) := by
  refine .setCmd rfl id id ?_
  rintro ⟨h1, h2, h3, h4, _⟩
  exact ⟨h1, h2, h3, h4, fun hne => absurd hx hne⟩

/-- The scan goes on. -/
theorem setScan {sc : Scan} (hs : s.crx.scan.isSome = true) : s.Keeps (s.setCrx { s.crx with scan := some sc }) := by
  refine ⟨⟨id, ?_, id, id, fun _ _ => id, fun _ => id, fun _ => id⟩, fun _ => .of_path_eq fun _ => rfl⟩
  rintro ⟨h1, hrest⟩
  exact ⟨h1.trans ⟨fun _ => rfl, fun _ => hs⟩, hrest⟩

theorem endScan (s : State) {l : List Byte} (hl : l ≠ []) : s.Keeps (s.endScan l) := by
  refine ⟨⟨?_, fun _ => ?_, id, id, fun _ _ => id, fun _ => id, fun _ => id⟩, fun _ => .of_path_eq fun _ => rfl⟩
  · rintro ⟨h1, h2, h3, h4, h5, h6, h7, h8, h9, h10, h11, h12, hi, _, hrest⟩
    exact ⟨h1, h2, h3, h4, h5, h6, h7, h8, h9, h10, h11, h12, hi, stage_outFifo_length l true s.cmd, hrest⟩
  · simp [State.PortOk, State.endScan, Cmd.stage, hl]

theorem stopScan (s : State) (t : Term) : s.Keeps (s.stopScan t) := by
  unfold State.stopScan
  split
  · exact .refl s
  · exact endScan s (Scan.result_ne_nil t _)

end State.Keeps

/-! ### The results of a scan -/

/-- A scan that has ended gives a result. -/
def Scanned.Full : Scanned → Prop
  | .going _ => True
  | .ended l => l ≠ []

theorem Scan.judgeOne_full (g : Nat) (x : Finding) (sc : Scan) : (sc.judgeOne g x).Full := by
  have hafter (u : Scan) : (if g = lastCandidate u.par then
      Scanned.ended (u.result (if u.last.isSome then .notFound else .noLabels)) else Scanned.going u).Full := by
    split
    · exact u.result_ne_nil _
    · trivial
  unfold Scan.judgeOne
  dsimp only
  split
  · exact hafter { sc with examined := sc.examined + 1, skipped := sc.skipped + 1 }
  · exact hafter { sc with examined := sc.examined + 1, unreadable := sc.unreadable + 1 }
  · rename_i l
    split
    · simp [Scanned.Full, scanResult]
    · exact hafter { sc with examined := sc.examined + 1, last := some (g, relation sc.par.pattern l) }

theorem judgeList_full (l : List (Nat × Finding)) (sc : Scan) : (judgeList l sc).Full := by
  induction l generalizing sc with
  | nil => trivial
  | cons e l ih =>
    unfold judgeList
    have hone := sc.judgeOne_full e.1 e.2
    split
    · split
      · exact ih _
      · rename_i he
        rwa [he] at hone
    · trivial

theorem Scan.decideAndJudge_full (broken : Bool) (sc : Scan) : (sc.decideAndJudge broken).Full := judgeList_full _ _

theorem Scan.stalled_full (sc : Scan) : sc.stalled.Full := by
  unfold Scan.stalled
  split
  · exact sc.result_ne_nil _
  · trivial

theorem Scan.frame_full (prev : Option Nat) (f : RxFrame) (sc : Scan) : (sc.frame prev f).Full := by
  unfold Scan.frame
  dsimp only
  split
  · have := sc.decideAndJudge_full true
    split
    · rename_i he; rwa [he] at this
    · exact Scan.stalled_full _
  · split
    · have := sc.decideAndJudge_full false
      split
      · rename_i he; rwa [he] at this
      · trivial
    · exact Scan.stalled_full _

namespace State.Keeps

variable {s : State}

theorem scanFrame (s : State) (c : Nat) (prev : Option Nat) (f : RxFrame) : s.Keeps (s.scanFrame c prev f) := by
  unfold State.scanFrame
  split
  · exact .refl s
  · rename_i sc hsc
    split
    · have hfull := sc.frame_full prev f
      split
      · exact setScan (by rw [hsc]; rfl)
      · rename_i l he
        rw [he] at hfull
        exact endScan s hfull
    · exact .refl s

theorem scanLost (s : State) (c : Nat) : s.Keeps (s.scanLost c) := by
  unfold State.scanLost
  split
  · exact .refl s
  · split
    · exact stopScan s _
    · exact .refl s

/-! ### Client receive sides -/

theorem markPath (s : State) (h : Nat) : s.Keeps (s.markPath h) := (State.Reworks.markPath (H := (· = h)) rfl).keeps

theorem markPort (s : State) (p : Nat) : s.Keeps (s.markPort p) := by
  unfold State.markPort
  split
  · exact markPath s _
  · exact .refl s

theorem modFil {h : Nat} {f : PathRec → Fil → Fil} (hf : ∀ (p : PathRec) (g : Fil), g.Ok p.k → (f p g).Ok p.k) :
    s.Keeps (s.modFil h f) := (State.Reworks.modFil (H := (· = h)) rfl hf).keeps

theorem deliverByte (s : State) (p : Nat) (b : Byte) : s.Keeps (s.deliverByte p b) := by
  unfold State.deliverByte
  split
  · exact .refl s
  · refine modFil fun q g hg => ?_
    split
    · exact Fil.deliver_ok hg b
    · exact hg

theorem capture (s : State) (q t : Nat) : s.Keeps (s.capture q t) := (State.Reworks.capture q t).keeps

end State.Keeps

theorem RxSide.hunting_ok {r : RxSide} (h : r.Ok) : r.hunting.Ok := ⟨Nat.zero_le _, Nat.zero_le _, h.2.2⟩

theorem RxSide.loseSignal_ok (r : RxSide) : r.loseSignal.Ok := ⟨Nat.zero_le _, Nat.zero_le _, Nat.le_refl _⟩

theorem RxSide.word_ok {r : RxSide} (form : Option Bool) (h : r.Ok) : (r.word form).1.Ok := by
  obtain ⟨hc, hm, hq⟩ := h
  unfold RxSide.word
  split
  · exact ⟨hc, hm, hq⟩
  · split
    · exact RxSide.hunting_ok ⟨hc, hm, hq⟩
    · split
      · exact ⟨Nat.le_refl _, Nat.zero_le _, hq⟩
      · exact ⟨by simp only; omega, hm, hq⟩
  · split
    · split
      · exact RxSide.hunting_ok ⟨hc, hm, hq⟩
      · exact ⟨hc, by simp only; omega, hq⟩
    · exact ⟨hc, Nat.zero_le _, hq⟩

theorem RxSide.byte_ok {r : RxSide} (k : Nat) (b : Byte) (h : r.Ok) : (r.byte k b).1.Ok := by
  unfold RxSide.byte
  split
  · split
    · exact ⟨Nat.zero_le _, Nat.zero_le _, h.2.2⟩
    · exact h
  · exact h
  · exact RxSide.word_ok _ h
  · exact h

namespace State.Keeps

variable {s : State}

theorem clientByte (s : State) (p : Nat) (b : Byte) (transition : Bool) (t : Nat) :
    s.Keeps (s.clientByte p b transition t) := by
  unfold State.clientByte
  dsimp only
  split
  · split
    · refine .trans ?_ (markPort _ _)
      exact .putRx fun h => ⟨h.1, h.2.1, Nat.zero_le _⟩
    · exact .refl s
  · refine .trans ?_ (markPort _ _)
    have hquiet : (if transition = true then 0 else satInc 32 (s.rx p).quiet) ≤ 32 := by
      split
      · exact Nat.zero_le _
      · exact satInc_le _ _
    have hput : s.Keeps (s.putRx p { ((s.rx p).byte (s.txSize p) b).1 with
        quiet := if transition = true then 0 else satInc 32 (s.rx p).quiet }) :=
      .putRx fun h => ⟨(RxSide.byte_ok _ b h).1, (RxSide.byte_ok _ b h).2.1, hquiet⟩
    refine .trans ?_ (.ite fun _ => .putRx fun _ => RxSide.loseSignal_ok _)
    refine .trans ?_ (.ite fun _ => capture _ _ _)
    exact hput.trans (.ite fun _ => deliverByte _ _ _)

/-! ### Carrier receivers -/

theorem markFed (s : State) (c : Nat) : s.Keeps (s.markFed c) :=
  .foldl _ (fun _ _ _ => .foldl _ (fun u h _ => markPath u h) _) s

theorem carrierDown {c : Nat} {r : Carrier} (h : (s.carrier c).Ok → r.Ok) : s.Keeps (s.carrierDown c r) := by
  unfold State.carrierDown
  refine .trans ?_ (markFed _ c)
  refine .trans ?_ (scanLost _ c)
  refine .trans ?_ (setFeed _ c _)
  exact putCarrier h

theorem carrierSignalLost (s : State) (c : Nat) : s.Keeps (s.carrierSignalLost c) := by
  have hlost (h : (s.carrier c).Ok) : ({ (s.carrier c).hunting with los := true, quiet := 32 } : Carrier).Ok :=
    ⟨Nat.zero_le _, Nat.zero_le _, Nat.le_refl _, h.2.2.2⟩
  unfold State.carrierSignalLost
  dsimp only
  split
  · exact carrierDown hlost
  · exact putCarrier hlost

end State.Keeps

theorem Carrier.hunting_ok {r : Carrier} (h : r.Ok) : r.hunting.Ok := ⟨Nat.zero_le _, Nat.zero_le _, h.2.2⟩

theorem Carrier.confirmed_ok {r : Carrier} (h : r.Ok) : r.confirmed.Ok := by
  unfold Carrier.confirmed
  split
  · exact ⟨Nat.le_refl _, Nat.zero_le _, h.2.2⟩
  · exact ⟨by simp only; omega, h.2⟩

theorem Carrier.byte_ok {r : Carrier} (b : Byte) (h : r.Ok) : (r.byte b).Ok := by
  unfold Carrier.byte
  split
  · exact h
  · split
    · exact h
    · split
      · split
        · exact Carrier.confirmed_ok h
        · exact Carrier.hunting_ok h
      · exact h
  · dsimp only
    split
    · exact ⟨Nat.zero_le _, Nat.zero_le _, h.2.2⟩
    · exact h

namespace State.Keeps

variable {s : State}

theorem markLabel (s : State) (h : Nat) : s.Keeps (s.markLabel h) := by
  refine .modPath fun p _ => ?_
  split
  · exact { PathRec.Kept.refl _ p with }
  · exact .refl _ p

theorem fedGroup (s : State) (f : RxFrame) (e : FeedEntry) : s.Keeps (s.fedGroup f e) := by
  refine .foldl _ (fun u h _ => ?_) s
  refine .trans (.trans ?_ (markPath _ h)) (markLabel _ h)
  split
  · exact modFil fun p g hg => Fil.burst_ok hg _
  · exact .refl u

theorem readFrame (s : State) (c : Nat) (f : RxFrame) : s.Keeps (s.readFrame c f) := by
  unfold State.readFrame
  refine .trans ?_ (scanFrame _ c _ f)
  refine .trans ?_ (.foldl _ (fun u e _ => fedGroup u f e) _)
  refine .trans ?_ (setFeed _ c _)
  exact putCarrier fun h => ⟨h.1, h.2.1, h.2.2.1, Nat.min_le_left _ _⟩

end State.Keeps

end Sys2Proof.Machine

/-! ## Proofs: what the host's commands keep -/

namespace Sys2Proof.Machine

/-! ### Records under a command -/

theorem PathRec.enabled_kept (b : Bool) (p : PathRec) : p.Kept b p.enabled := by
  unfold PathRec.enabled
  split
  · split
    · exact { PathRec.Kept.refl b p with }
    · exact .refl b p
  · split
    · refine (PathRec.Kept.of_state (st := .waiting) fun _ _ => PathRec.offHighway_of_rests rfl).trans ?_
      exact .of_hw (fun _ => Nat.zero_le _) (fun _ => Nat.zero_le _)
    · exact .refl b p
  · split
    · refine (PathRec.Kept.of_state (st := .listening) fun _ _ => PathRec.offHighway_of_rests rfl).trans ?_
      exact .of_sk (fun _ => Nat.zero_le _) (fun _ => Nat.zero_le _)
    · exact .refl b p

/-- A record that is live takes part on the highway, or is LOCAL. -/
theorem PathRec.offHighway_eq_true_of_live {p : PathRec} (hl : p.live = true) (hoff : p.offHighway = true) :
    p.role = .loc := by
  cases hr : p.role <;> simp [PathRec.live, isLive, hr] at hl
  · rfl
  · rcases hl with h | h <;> simp [PathRec.offHighway, hr, h] at hoff
  · rcases hl with h | h <;> simp [PathRec.offHighway, hr, h] at hoff

theorem PathRec.moving_kept {b : Bool} {p : PathRec} (hl : p.live = true) : p.Kept b { p with state := .moving } :=
  .of_state fun _ hoff => PathRec.offHighway_of_loc (p := { p with state := .moving })
    (PathRec.offHighway_eq_true_of_live (p := p) hl hoff)

theorem PathRec.moveBerths_kept {b : Bool} {p : PathRec} (hl : p.live = true) (c n oc on : Nat) :
    p.Kept b (p.moveBerths c n oc on) := (PathRec.moving_kept hl).trans (.of_berths _ _ _)

theorem PathRec.moveCells_kept {b : Bool} {p : PathRec} (hl : p.live = true) : p.Kept b p.moveCells :=
  (PathRec.moving_kept hl).trans (.of_hw id id)

theorem Squelch.command_quiet (q : Squelch) (b : Bool) : (q.command b).quiet = q.quiet := by
  unfold Squelch.command
  split <;> rfl

namespace State.Reworks

variable {H : Nat → Prop} {s : State} {h : Nat}

/-! ### DISABLE and DELETE (R51 to R54) -/

theorem endForcedOp {p : PathRec} (hh : H h) (hp : s.path h = some p) : State.Reworks H s (s.endForcedOp h p) := by
  unfold State.endForcedOp
  split
  · exact .refl s
  · rename_i f hf
    split
    · refine .trans (setPath hh hp (.of_fil (by rw [hf]; rfl) fun hok g hg => ?_)) (.post _ _ hh)
      rw [Option.some.injEq] at hg
      exact hg ▸ Fil.endForced_ok (hok f hf)
    · exact .refl s

theorem endMove (hh : H h) (p : PathRec) : State.Reworks H s (s.endMove h p) := by
  unfold State.endMove
  refine (failBerthMove hh .disabled).trans ?_
  dsimp only
  split
  · exact .post _ _ hh
  · exact .refl _

theorem dropSource (hh : H h) (p : PathRec) (r : ReleaseReason) : State.Reworks H s (s.dropSource h p r) := by
  unfold State.dropSource
  refine .trans (t := match p.state with
    | .claiming => ((if s.claimQueued h then s.unsendClaim p.tag else s.releaseOpt p p.hw.cells r).idleMonitors h).freeOpt
        p.hw.cells p.k
    | .carrying => (s.releaseOpt p p.hw.cells r).freeOpt p.hw.cells p.k
    | .moving => ((s.releaseOpt p p.hw.cells r).freeOpt p.hw.cells p.k).dropNewRun h p r
    | _ => s) ?_ (modHw hh fun _ => ⟨fun _ => Nat.zero_le _, fun hc => ?_⟩)
  · split
    · refine .trans ?_ ((idleMonitors h).trans (freeOpt _ _))
      split
      · exact unsend _
      · exact releaseOpt _ _ _
    · exact (releaseOpt _ _ _).trans (freeOpt _ _)
    · exact (releaseOpt _ _ _).trans ((freeOpt _ _).trans (dropNewRun _ _))
    · exact .refl s
  · dsimp only
    split
    · exact Nat.zero_le _
    · exact hc

theorem dropSink (hh : H h) (p : PathRec) : State.Reworks H s (s.dropSink h p) := by
  unfold State.dropSink
  refine .trans (t := match p.state with
    | .accepted =>
      if p.sk.status = some AcceptStatus.queued then s.unsendAccept p.tag false else s.releaseOpt p p.sk.cells .sinkGone
    | .receiving | .moving => (s.cancelSinkMove h p).releaseOpt p p.sk.cells .sinkGone
    | _ => s) ?_ (modSk hh fun _ => ⟨fun _ => Nat.zero_le _, id⟩)
  split
  · split
    · exact unsend _
    · exact releaseOpt _ _ _
  · exact (cancelSinkMove hh p).trans (releaseOpt _ _ _)
  · exact (cancelSinkMove hh p).trans (releaseOpt _ _ _)
  · exact .refl s

theorem dropHighway (hh : H h) (p : PathRec) (r : ReleaseReason) : State.Reworks H s (s.dropHighway h p r) := by
  unfold State.dropHighway
  split
  · exact .refl s
  · exact dropSource hh p r
  · exact dropSink hh p

theorem disable {p : PathRec} (hh : H h) (hp : s.path h = some p) : State.Reworks H s (s.disable h p) := by
  unfold State.disable
  refine .trans ((endForcedOp hh hp).trans ((endMove hh p).trans (dropHighway hh p .disabled))) ?_
  refine modPath hh fun q _ => ?_
  exact (PathRec.Kept.of_state (st := .defined) fun _ _ => PathRec.offHighway_of_rests rfl).trans
    { PathRec.Kept.refl _ _ with }

end State.Reworks

namespace State.Keeps

variable {s : State}

/-! ### Bindings -/

/-- A change of the bindings of the path table alone. -/
theorem setBinds {r t : Sparse Nat} (hr : Sparse.rising s.ptb.rxBind = true → Sparse.rising r = true)
    (ht : Sparse.rising s.ptb.txBind = true → Sparse.rising t = true) :
    s.Keeps (s.setPtb { s.ptb with rxBind := r, txBind := t }) := by
  refine ⟨⟨id, id, ?_, id, fun _ _ => id, fun _ => id, fun _ => id⟩, fun _ => .of_path_eq fun _ => rfl⟩
  rintro ⟨h1, h2, h3, hrest⟩
  exact ⟨h1, hr h2, ht h3, hrest⟩

/-- A record and its entry of the completion list go. -/
theorem erasePath (s : State) (h : Nat) : s.Keeps (s.setPtb { s.ptb with
    paths := Sparse.erase s.ptb.paths h, completions := s.ptb.completions.filter (fun e => !(e.1 == h)) }) := by
  set t := s.setPtb { s.ptb with
    paths := Sparse.erase s.ptb.paths h, completions := s.ptb.completions.filter (fun e => !(e.1 == h)) } with ht
  have hother (g : Nat) (hg : g ≠ h) : t.path g = s.path g := Sparse.find_erase_ne _ hg
  have hpath (hT : s.TablesOk) (g : Nat) (q : PathRec) (hq : t.path g = some q) : g ≠ h ∧ s.path g = some q := by
    have hg : g ≠ h := by
      rintro rfl
      have : t.path g = none := Sparse.find_erase_self _ _ hT.1
      rw [this] at hq
      cases hq
    exact ⟨hg, (hother g hg).symm.trans hq⟩
  have hlisted (g : Nat) (hg : g ≠ h) : t.listed g = s.listed g := by
    rw [Bool.eq_iff_iff]
    simp only [State.listed, List.any_eq_true, ht, State.setPtb_ptb, List.mem_filter, beq_iff_eq]
    constructor
    · rintro ⟨e, ⟨he, _⟩, hge⟩; exact ⟨e, he, hge⟩
    · rintro ⟨e, he, hge⟩; exact ⟨e, ⟨he, by simpa [hge] using hg⟩, hge⟩
  refine ⟨⟨id, id, ?_, id, fun hT _ hm hs g q hq => hm hs g q (hpath hT g q hq).2, fun hT hc => ?_,
    fun hT hok g q hq => hok g q (hpath hT g q hq).2⟩, fun hT g q hq => ⟨q, (hpath hT g q hq).2, .refl q⟩⟩
  · rintro ⟨h1, hrest⟩
    exact ⟨Sparse.rising_erase _ _ h1, hrest⟩
  · obtain ⟨hnodup, hentries, hpending⟩ := hc
    refine ⟨hnodup.sublist (List.filter_sublist.map _), fun e he => ?_, fun g q hq => ?_⟩
    · obtain ⟨he, hne⟩ := List.mem_filter.mp he
      rw [hother _ (by simpa using hne)]
      exact hentries e he
    · obtain ⟨hg, hq⟩ := hpath hT g q hq
      rw [hlisted g hg]
      exact hpending g q hq

/-! ### START (R186) -/

theorem resizePort (z : BitVec 8) (q : Nat) (s : State) : s.Keeps (s.resizePort z q) := by
  unfold State.resizePort
  dsimp only
  split
  · exact .refl s
  · refine .trans ?_ (setTx _ _ _)
    refine putRx fun h => ?_
    split
    · exact RxSide.hunting_ok h
    · exact ⟨Nat.zero_le _, Nat.zero_le _, Nat.zero_le _⟩

theorem clamp_le {lo hi n : Nat} (h : lo ≤ hi) : clamp lo hi n ≤ hi := Nat.max_le.mpr ⟨h, Nat.min_le_left _ _⟩

/-- START gives the station its number and its state (R100, R103). -/
theorem startStation {number timeout : Nat} (block : Bool) (hs : s.cmd.started = false) (ht : timeout ≤ 15) :
    s.Keeps (((s.setHwy { s.hwy with
      number := some number, timeout := timeout, block := block,
      station := if s.hwy.doubt then .mute else .warming, warm := 0 }).setFtm { s.ftm with mfCount := 0 }).setCmd
        { s.cmd with started := true }) := by
  have hne : (if s.hwy.doubt then Station.mute else .warming) ≠ .unstarted := by split <;> simp
  have hunstarted (h : s.StationOk) : s.hwy.station = .unstarted := by
    by_contra hc
    simp [h.1.mpr hc] at hs
  have hsilent (h : s.StationOk) : s.silent = true := by simp [State.silent, hunstarted h]
  refine ⟨⟨?_, id, id, ?_, fun _ hst hm _ => hm (hsilent hst), fun _ => id, fun _ => id⟩,
    fun _ => .of_path_eq fun _ => rfl⟩
  · rintro ⟨h1, _, h3, h4, h5, h6, h7, _, h9, h10, h11, h12, h13, h14, h15, h16, h17, h18, _, h20⟩
    exact ⟨h1, Nat.zero_lt_succ _, h3, h4, h5, h6, h7, Nat.zero_le _, h9, h10, h11, h12, h13, h14, h15, h16, h17, h18, ht, h20⟩
  · intro hst
    refine ⟨⟨fun _ => hne, fun _ => rfl⟩, ⟨fun _ => rfl, fun _ => rfl⟩, fun _ => hst.2.2.1 (hsilent hst), fun hd => ?_⟩
    have := hst.2.2.2 hd
    rw [hunstarted hst] at this
    cases this

theorem setConstants (s : State) (holdoff guard : Nat) :
    s.Keeps (s.setCbl { s.cbl with holdoff := holdoff, guard := guard }) := .setCbl id id

end State.Keeps

/-- START before it reaches the station: the ports, the constants of FIL and those of CBL (R16, R63, R91, R146). -/
def State.sized (s : State) (p : StartP) : State :=
  ((((List.range 32).foldl (fun s q => s.resizePort p.sizing q) s).setClp
    { ((List.range 32).foldl (fun s q => s.resizePort p.sizing q) s).clp with sizing := p.sizing }).setFil
    { h := min 15 p.h, n := clamp 1 8 p.n, i := clamp 1 16 p.i, m := clamp 1 255 p.m }).setCbl
      { ((List.range 32).foldl (fun s q => s.resizePort p.sizing q) s).cbl with
        holdoff := clamp 1 15 p.holdoff, guard := clamp 1 15 p.guard }

/-- START at the station and the port, before the paths see their sources again (R100, R186). -/
def State.stationed (s : State) (p : StartP) : State :=
  ((s.setHwy { s.hwy with
    number := some p.station, timeout := clamp 1 15 p.timeout, block := p.expiry == 1,
    station := if s.hwy.doubt then .mute else .warming, warm := 0 }).setFtm { s.ftm with mfCount := 0 }).setCmd
      { s.cmd with started := true }

theorem State.started_eq (s : State) (p : StartP) :
    s.started p = (List.range 32).foldl (fun s q => s.markPort q) ((s.sized p).stationed p) := rfl

@[simp] theorem State.putRx_cmd (s : State) (p : Nat) (r : RxSide) : (s.putRx p r).cmd = s.cmd := rfl
@[simp] theorem State.resizePort_cmd (z : BitVec 8) (q : Nat) (s : State) : (s.resizePort z q).cmd = s.cmd := by
  unfold State.resizePort
  split <;> rfl

theorem State.foldl_resizePort_cmd (z : BitVec 8) (l : List Nat) (s : State) :
    (l.foldl (fun s q => s.resizePort z q) s).cmd = s.cmd := by
  induction l generalizing s with
  | nil => rfl
  | cons q l ih => exact (ih _).trans (s.resizePort_cmd z q)

@[simp] theorem State.sized_cmd (s : State) (p : StartP) : (s.sized p).cmd = s.cmd :=
  State.foldl_resizePort_cmd p.sizing _ s

/-- Ports that see their paths' sources again change records alone. -/
theorem State.Reworks.markPort (s : State) (q : Nat) : State.Reworks (fun _ => True) s (s.markPort q) := by
  unfold State.markPort
  split
  · exact .markPath trivial
  · exact .refl s

theorem State.Reworks.markPorts (s : State) (l : List Nat) :
    State.Reworks (fun _ => True) s (l.foldl (fun s q => s.markPort q) s) := .foldl (fun u q _ => .markPort u q) s

namespace State.Keeps

variable {s : State}

theorem started (hs : s.cmd.started = false) (p : StartP) : s.Keeps (s.started p) := by
  rw [State.started_eq]
  refine .trans ?_ (State.Reworks.markPorts _ _).keeps
  refine .trans ?_ (startStation _ (by rw [State.sized_cmd, hs]) (clamp_le (by decide)))
  refine .trans ?_ (setConstants _ _ _)
  refine .trans ?_ (setFil _ _)
  refine .trans ?_ (setSizing _ _)
  exact .foldl _ (fun u q _ => resizePort _ _ u) s

end State.Keeps

@[simp] theorem State.started_phase (s : State) (p : StartP) : (s.started p).cmd.phase = s.cmd.phase := by
  obtain ⟨_, _, _, _, _, hcmd, _⟩ := (State.Reworks.markPorts ((s.sized p).stationed p) (List.range 32)).sameBlocks.blocks
  rw [State.started_eq, hcmd, State.stationed, State.setCmd_cmd, State.sized_cmd]

namespace State.Keeps

variable {s : State}

theorem serveStart (hx : s.cmd.phase ≠ .execution) (p : StartP) : s.Keeps (s.serveStart p) := by
  unfold State.serveStart
  split
  · exact answerCode hx _
  · split
    · exact answerCode hx _
    · exact (started (by simpa using ‹¬ s.cmd.started = true›) p).trans (answerCode (by rwa [State.started_phase]) _)

/-! ### Commands that name a handle -/

theorem withHandle {h : Nat} {b : Bool} {f : PathRec → State} (hx : s.cmd.phase ≠ .execution)
    (hf : ∀ p, s.path h = some p → s.Keeps (f p)) : s.Keeps (s.withHandle h b f) := by
  unfold State.withHandle
  split
  · exact answerCode hx _
  · split
    · exact answerCode hx _
    · split
      · exact answerCode hx _
      · exact hf _ ‹_›

theorem serveEnable (hx : s.cmd.phase ≠ .execution) (h : Nat) : s.Keeps (s.serveEnable h) := by
  refine withHandle hx fun p hp => ?_
  split
  · exact answer hx (by simp [refusedBy])
  · exact thenCode (setPath hp (p.enabled_kept _)) hx

theorem serveDisable (hx : s.cmd.phase ≠ .execution) (h : Nat) : s.Keeps (s.serveDisable h) := by
  refine withHandle hx fun p hp => ?_
  split
  · exact thenCode (setPath hp { PathRec.Kept.refl _ p with }) hx
  · have hr : State.Reworks (· = h) s (s.disable h p) := .disable rfl hp
    obtain ⟨_, _, _, _, _, hcmd, _⟩ := hr.sameBlocks.blocks
    exact thenCode hr.keeps (by rwa [hcmd])

theorem serveMove (hx : s.cmd.phase ≠ .execution) (h form c b : Nat) : s.Keeps (s.serveMove h form c b) := by
  unfold State.serveMove
  split
  · exact answerCode hx _
  · refine withHandle hx fun p hp => ?_
    split
    · exact answerCode hx _
    · split
      · split
        · split
          · rename_i hlive
            simp only [Bool.and_eq_true] at hlive
            unfold State.serveMoveBerths
            split
            · exact answer hx (by simp [refusedBy])
            · split
              · exact answer hx (by simp [refusedBy])
              · exact thenCode (setPath hp (PathRec.moveBerths_kept hlive.2 _ _ _ _)) hx
          · exact answerCode hx _
        · exact answerCode hx _
      · split
        · rename_i hcar
          have hlive : p.live = true := by simp [PathRec.live, isLive, hcar.1, hcar.2]
          exact thenCode (setPath hp (PathRec.moveCells_kept hlive)) hx
        · exact answerCode hx _

theorem serveForced {op : PathRec → Forced} (hx : s.cmd.phase ≠ .execution) (h : Nat)
    (hop : ∀ p, (op p).steps ≤ (op p).limit) : s.Keeps (s.serveForced h op) := by
  refine withHandle hx fun p hp => ?_
  split
  · exact answerCode hx _
  · rename_i f hf
    split
    · exact answerCode hx _
    · split
      · exact answerCode hx _
      · refine thenCode (setPath hp (.of_fil (by rw [hf]; rfl) fun hok g hg => ?_)) hx
        rw [Option.some.injEq] at hg
        exact hg ▸ Fil.withForced_ok (hok f hf) (hop p)

theorem serveSquelch (hx : s.cmd.phase ≠ .execution) (h flag : Nat) : s.Keeps (s.serveSquelch h flag) := by
  unfold State.serveSquelch
  split
  · exact answerCode hx _
  · refine withHandle hx fun p hp => ?_
    split
    · exact thenCode (setPath hp (.of_sq fun hq => (Squelch.command_quiet p.sq _).trans_le hq)) hx
    · exact answerCode hx _

/-! ### DELETE PATH (R54) -/

theorem unbind (s : State) (h : Nat) (p : PathRec) : s.Keeps (s.unbind h p) := by
  have hsink (u : State) : u.Keeps (match p.sink with
      | some (.port q) => u.setPtb { u.ptb with txBind := Sparse.erase u.ptb.txBind q }
      | _ => u) := by
    split
    · exact setBinds (r := u.ptb.rxBind) id (Sparse.rising_erase _ _)
    · exact .refl u
  unfold State.unbind
  refine .trans ?_ (hsink _)
  split
  · refine .trans ?_ (setCnd (Cnd.dropInsts_kept _ _))
    refine .trans ?_ (setRx id)
    exact setBinds (t := s.ptb.txBind) (Sparse.rising_erase _ _) id
  · exact setFeed _ _ _
  · exact .refl s

theorem forget (s : State) (h : Nat) : s.Keeps (s.setCbl (s.cbl.forget h)) := .setCbl (Sparse.rising_filter _ _) id

theorem delete (s : State) (h : Nat) (p : PathRec) : s.Keeps (s.delete h p) := by
  unfold State.delete
  refine .trans ?_ (erasePath _ h)
  refine .trans ?_ (setCnd (Cnd.dropInsts_kept _ _))
  refine .trans ?_ (unbind _ h p)
  refine .trans ?_ (forget _ h)
  exact (State.Reworks.dropHighway (H := (· = h)) rfl p .deleted).keeps

end State.Keeps

@[simp] theorem State.unbind_cmd (s : State) (h : Nat) (p : PathRec) : (s.unbind h p).cmd = s.cmd := by
  unfold State.unbind
  split <;> split <;> rfl

@[simp] theorem State.delete_cmd (s : State) (h : Nat) (p : PathRec) : (s.delete h p).cmd = s.cmd := by
  obtain ⟨_, _, _, _, _, hcmd, _⟩ :=
    (State.Reworks.dropHighway (H := (· = h)) (s := s) rfl p .deleted).sameBlocks.blocks
  simp [State.delete, hcmd]

namespace State.Keeps

variable {s : State}

theorem serveDelete (hx : s.cmd.phase ≠ .execution) (h : Nat) : s.Keeps (s.serveDelete h) :=
  withHandle hx fun p _ => (delete s h p).trans (answerCode (by rwa [State.delete_cmd]) _)

/-! ### Commands that read -/

theorem serveReadCells (hx : s.cmd.phase ≠ .execution) (first count : Nat) : s.Keeps (s.serveReadCells first count) := by
  unfold State.serveReadCells
  split
  · exact answerCode hx _
  · exact answer hx (by simp)

end State.Keeps

/-- The carriers' control-error counts below `n` go back to 0. -/
theorem State.foldl_clear_cmd (l : List Nat) (s : State) :
    (l.foldl (fun s c => s.setCarrier c { s.carrier c with ctlErr := 0 }) s).cmd = s.cmd := by
  induction l generalizing s with
  | nil => rfl
  | cons c l ih => exact (ih _).trans rfl

namespace State.Keeps

variable {s : State}

theorem clearCounts (s : State) : s.Keeps s.clearCounts := by
  unfold State.clearCounts
  refine .trans ?_ (.foldl _ (fun u c _ => ?_) _)
  · exact setHwy (H := fun _ => False)
      { Hwy.Kept.refl _ s.silent s.hwy with msgCheck := fun _ => (Nat.zero_le _ : 0 ≤ 65535) }
  · exact setCarrier fun h => ⟨h.1, h.2.1, h.2.2.1, Nat.zero_le _⟩

theorem serveReadStation (hx : s.cmd.phase ≠ .execution) : s.Keeps s.serveReadStation := by
  refine (clearCounts s).trans (answer ?_ (by simp [State.stationOut]))
  rw [State.clearCounts, State.foldl_clear_cmd]
  exact hx

/-- The oldest completion goes, with the record's mark (R57). -/
theorem sensed {h : Nat} {c : Completion} {rest : List (Nat × Completion)} {p : PathRec}
    (hl : s.ptb.completions = (h, c) :: rest) (hp : s.path h = some p) :
    s.Keeps ((s.setPtb { s.ptb with completions := rest }).setPath h { p with superseded := 0, completionPending := false }) := by
  set q : PathRec := { p with superseded := 0, completionPending := false }
  set t := (s.setPtb { s.ptb with completions := rest }).setPath h q with ht
  have hself : t.path h = some q := State.path_setPath_self _ h q
  have hother (g : Nat) (hg : g ≠ h) : t.path g = s.path g := State.path_setPath_ne _ q hg
  have hpath (g : Nat) (r : PathRec) (hr : t.path g = some r) : g = h ∧ r = q ∨ g ≠ h ∧ s.path g = some r := by
    by_cases hg : g = h
    · subst hg
      rw [hself, Option.some.injEq] at hr
      exact .inl ⟨rfl, hr.symm⟩
    · exact .inr ⟨hg, (hother g hg).symm.trans hr⟩
  refine ⟨⟨id, id, ?_, id, fun _ _ hm hs g r hr => ?_, fun _ hc => ?_, fun _ hok g r hr => ?_⟩, fun _ g r hr => ?_⟩
  · rintro ⟨h1, hrest⟩
    exact ⟨Sparse.rising_insert _ _ _ h1, hrest⟩
  · rcases hpath g r hr with ⟨rfl, rfl⟩ | ⟨_, hr⟩
    · exact hm hs g p hp
    · exact hm hs g r hr
  · obtain ⟨hnodup, hentries, hpending⟩ := hc
    rw [hl, List.map_cons, List.nodup_cons] at hnodup
    obtain ⟨hfresh, hnodup⟩ := hnodup
    refine ⟨hnodup, fun e he => ?_, fun g r hr => ?_⟩
    · have hne : e.1 ≠ h := fun he' => hfresh (List.mem_map.mpr ⟨e, he, he'⟩)
      rw [hother _ hne]
      exact hentries e (hl ▸ List.mem_cons_of_mem _ he)
    · rcases hpath g r hr with ⟨rfl, rfl⟩ | ⟨hg, hr⟩
      · have : t.listed g = false := (State.listed_eq_false_iff _ _).mpr hfresh
        simp [this, q]
      · have hlist : t.listed g = s.listed g := by
          simp [State.listed, hl, t, State.setPath, Ne.symm hg]
        rw [hlist]
        exact hpending g r hr
  · rcases hpath g r hr with ⟨rfl, rfl⟩ | ⟨_, hr⟩
    · obtain ⟨h1, h2, h3, h4, _, hrest⟩ := hok g p hp
      exact ⟨h1, h2, h3, h4, Nat.zero_le _, hrest⟩
    · exact hok g r hr
  · rcases hpath g r hr with ⟨rfl, rfl⟩ | ⟨_, hr⟩
    · exact ⟨p, hp, .refl p⟩
    · exact ⟨r, hr, .refl r⟩

/-- An entry of a handle not in use goes; the completion list holds none. -/
theorem dropEntry {h : Nat} {c : Completion} {rest : List (Nat × Completion)}
    (hl : s.ptb.completions = (h, c) :: rest) (hp : s.path h = none) :
    s.Keeps (s.setPtb { s.ptb with completions := rest }) := by
  refine ⟨⟨id, id, id, id, fun _ _ => id, fun _ hc => ?_, fun _ => id⟩, fun _ => .of_path_eq fun _ => rfl⟩
  obtain ⟨p, hp', _⟩ := hc.2.1 (h, c) (by simp [hl])
  simp [hp] at hp'

theorem serveSense (hx : s.cmd.phase ≠ .execution) : s.Keeps s.serveSense := by
  unfold State.serveSense
  split
  · exact answerCode hx _
  · rename_i h c rest hl
    split
    · exact thenCode (dropEntry hl ‹_›) hx
    · exact thenAnswer (sensed hl ‹_›) hx (by simp)

/-! ### Commands of the condition monitor and the scan engine -/

theorem serveReadConditions (hx : s.cmd.phase ≠ .execution) : s.Keeps s.serveReadConditions := by
  refine thenAnswer (setCnd ?_) hx (by simp)
  exact ⟨fun h => by simp only [List.length_drop]; omega, fun h r hr => h r (List.mem_of_mem_drop hr), id, id, id⟩

theorem serveSetReport (hx : s.cmd.phase ≠ .execution) (p : ReportP) : s.Keeps (s.serveSetReport p) := by
  unfold State.serveSetReport
  split
  · split
    · exact answerCode hx _
    · exact thenCode (setCnd ⟨id, id, id, id, Sparse.rising_put _ _ _ _⟩) hx
  · exact answerCode hx _

theorem serveQuiet (hx : s.cmd.phase ≠ .execution) : s.Keeps s.serveQuiet :=
  thenCode (setCnd ⟨id, id, id, id, id⟩) hx

theorem serveResume (hx : s.cmd.phase ≠ .execution) : s.Keeps s.serveResume :=
  thenCode (setCnd (s.cnd.resume_kept _)) hx

theorem serveDefaults (hx : s.cmd.phase ≠ .execution) : s.Keeps s.serveDefaults :=
  thenCode (setCnd ⟨fun _ => Nat.zero_le _, by simp, id, id, fun _ => rfl⟩) hx

theorem beginScan (s : State) (p : ScanP) : s.Keeps (s.beginScan p) := by
  unfold State.beginScan
  split
  · refine ⟨⟨?_, fun _ => ?_, id, id, fun _ _ => id, fun _ => id, fun _ => id⟩, fun _ => .of_path_eq fun _ => rfl⟩
    · rintro ⟨h1, h2, h3, h4, h5, h6, h7, h8, h9, h10, h11, h12, hi, _, hrest⟩
      exact ⟨h1, h2, h3, h4, h5, h6, h7, h8, h9, h10, h11, h12, hi, Nat.zero_le _, hrest⟩
    · simp [State.PortOk]
  · rename_i b r hin
    refine .trans (setInFifo fun h => ?_) (endScan _ (Scan.result_ne_nil _ _))
    rw [hin, List.length_cons] at h
    omega

theorem serveLabelScan (hx : s.cmd.phase ≠ .execution) (p : ScanP) : s.Keeps (s.serveLabelScan p) := by
  unfold State.serveLabelScan
  split
  · exact answerCode hx _
  · split
    · exact answer hx (by simp [scanResult])
    · exact beginScan s p

end State.Keeps

end Sys2Proof.Machine

/-! ## Proofs: what ADD PATH, a command and a byte keep -/

namespace Sys2Proof.Machine

/-! ### The lowest free handle (R45) -/

theorem lowestGap_spec {l : List Nat} {n : Nat} (hl : l.Pairwise (· < ·)) (hn : ∀ a ∈ l, n ≤ a) :
    n ≤ lowestGap l n ∧ lowestGap l n ∉ l ∧ ∀ m, n ≤ m → m < lowestGap l n → m ∈ l := by
  induction l generalizing n with
  | nil => exact ⟨Nat.le_refl _, List.not_mem_nil, fun m h h' => absurd h' (Nat.not_lt.mpr h)⟩
  | cons a l ih =>
    rw [List.pairwise_cons] at hl
    unfold lowestGap
    split
    · rename_i ha
      subst ha
      obtain ⟨hle, hmem, hbelow⟩ := ih (n := a + 1) hl.2 fun b hb => hl.1 b hb
      refine ⟨by omega, by simp only [List.mem_cons, not_or]; exact ⟨by omega, hmem⟩, fun m hm hlt => ?_⟩
      rcases Nat.eq_or_lt_of_le hm with rfl | hm
      · simp
      · exact List.mem_cons_of_mem _ (hbelow m hm hlt)
    · rename_i ha
      have hna := hn a (by simp)
      refine ⟨Nat.le_refl _, ?_, fun m h h' => absurd h' (Nat.not_lt.mpr h)⟩
      simp only [List.mem_cons, not_or]
      exact ⟨Ne.symm ha, fun hmem => by have := hl.1 n hmem; omega⟩

theorem State.path_eq_none_iff {s : State} (h : Nat) : s.path h = none ↔ h ∉ s.handles := by
  unfold State.path State.handles
  induction s.ptb.paths with
  | nil => simp [Sparse.find]
  | cons e l ih =>
    simp only [Sparse.find, List.map_cons, List.mem_cons, not_or]
    split
    · rename_i he; simp [he]
    · rename_i he; rw [ih]; simp [Ne.symm he]

theorem State.freeHandle_spec {s : State} (hs : Sparse.rising s.ptb.paths = true) :
    s.path s.freeHandle = none ∧ ∀ g, g < s.freeHandle → s.path g ≠ none := by
  obtain ⟨_, hmem, hbelow⟩ := lowestGap_spec (n := 0) ((Sparse.rising_iff_pairwise _).mp hs) fun a _ => Nat.zero_le a
  exact ⟨(State.path_eq_none_iff _).mpr hmem, fun g hg hnone => (State.path_eq_none_iff g).mp hnone
    (hbelow g (Nat.zero_le _) hg)⟩

/-! ### A new record (R46) -/

theorem Fil.create_ok (k : Nat) : (Fil.create k).Ok k := by
  refine ⟨?_, Nat.le_refl _, Nat.zero_lt_succ _, Nat.zero_le _, fun o ho => by simp [Fil.create] at ho⟩
  simpa [Fil.create] using Fil.centre_le_capacity k

theorem addedRecord_ok {p : AddP} (hp : p.inRange = true) : (addedRecord p).Ok := by
  have hsize : validSize p.size = true := by
    simp only [AddP.inRange, Bool.and_eq_true] at hp
    tauto
  refine ⟨validSize_iff.mp hsize, ?_, fun f hf => ?_, Nat.zero_le _, Nat.zero_le _, Nat.zero_le _, Nat.zero_le _,
    Nat.zero_le _, Nat.zero_le _, Nat.zero_le _⟩
  · by_cases hr : p.roleOf = .sink <;> simp [addedRecord, hr]
  · have : f = Fil.create p.size := by
      by_cases hr : p.roleOf = .sink <;> simp [addedRecord, hr] at hf
      exact hf.symm
    exact this ▸ Fil.create_ok _

/-- A new record in DEFINED keeps every invariant. -/
theorem State.KeepsInvariants.newPath {s : State} {h : Nat} {p : PathRec} (hfree : s.TablesOk → s.path h = none)
    (hst : p.state = .defined) (hpend : p.completionPending = false) (hok : p.Ok) :
    s.KeepsInvariants (s.setPath h p) := by
  have hpath (g : Nat) (r : PathRec) (hr : (s.setPath h p).path g = some r) : g = h ∧ r = p ∨ g ≠ h ∧ s.path g = some r := by
    by_cases hg : g = h
    · subst hg
      rw [State.path_setPath_self, Option.some.injEq] at hr
      exact .inl ⟨rfl, hr.symm⟩
    · exact .inr ⟨hg, (State.path_setPath_ne s p hg) ▸ hr⟩
  refine ⟨id, id, ?_, id, fun _ _ hm hs g r hr => ?_, fun hT hc => ?_, fun _ hall g r hr => ?_⟩
  · rintro ⟨h1, hrest⟩
    exact ⟨Sparse.rising_insert _ _ _ h1, hrest⟩
  · rcases hpath g r hr with ⟨_, rfl⟩ | ⟨_, hr⟩
    · exact PathRec.offHighway_of_rests (by rw [hst]; rfl)
    · exact hm hs g r hr
  · obtain ⟨hnodup, hentries, hpending⟩ := hc
    have hne (e : Nat × Completion) (he : e ∈ s.ptb.completions) : e.1 ≠ h := by
      rintro rfl
      obtain ⟨q, hq, _⟩ := hentries e he
      simp [hfree hT] at hq
    refine ⟨hnodup, fun e he => ?_, fun g r hr => ?_⟩
    · rw [State.path_setPath_ne s p (hne e he)]
      exact hentries e he
    · rcases hpath g r hr with ⟨rfl, rfl⟩ | ⟨_, hr⟩
      · have : (s.setPath g r).listed g = false := by
          rw [State.listed_eq_false_iff]
          intro hmem
          obtain ⟨e, he, heq⟩ := List.mem_map.mp hmem
          exact hne e he heq
        simp [hpend, this]
      · exact hpending g r hr
  · rcases hpath g r hr with ⟨_, rfl⟩ | ⟨_, hr⟩
    · exact hok
    · exact hall g r hr

namespace State.Keeps

variable {s : State}

theorem bindSource (s : State) (h k : Nat) (e : Option Endpoint) : s.Keeps (s.bindSource h k e) := by
  unfold State.bindSource
  split
  · refine .trans ?_ (setRx id)
    exact setBinds (t := s.ptb.txBind) (Sparse.rising_insert _ _ _) id
  · exact setFeed _ _ _
  · exact .refl s

theorem bindSink (s : State) (h k : Nat) (e : Option Endpoint) : s.Keeps (s.bindSink h k e) := by
  unfold State.bindSink
  split
  · exact setBinds (r := s.ptb.rxBind) id (Sparse.rising_insert _ _ _)
  · exact (State.Reworks.setOwner (H := (· = h)) _ _ _ _ _).keeps
  · exact .refl s

end State.Keeps

/-- A record with its endpoints bound and its condition instances (R46): what ADD does beyond the record itself. -/
def State.bound (s : State) (h : Nat) (p : PathRec) : State :=
  let u := (s.bindSource h p.k p.source).bindSink h p.k p.sink
  (u.setCnd (u.cnd.addInsts (newInsts h p))).markPath h

/-- The record that ADD stores (R46). -/
def State.placed (s : State) (p : PathRec) : PathRec := { p with place := p.placeNow, srcBadSeen := s.notDeliveredAll p }

theorem State.addRecord_eq (s : State) (h : Nat) (p : PathRec) :
    s.addRecord h p = (s.setPath h (s.placed p)).bound h (s.placed p) := rfl

theorem State.Keeps.bound (s : State) (h : Nat) (p : PathRec) : s.Keeps (s.bound h p) := by
  unfold State.bound
  refine .trans ?_ (markPath _ h)
  refine .trans ?_ (setCnd (Cnd.addInsts_kept _ _))
  exact (bindSource s h p.k p.source).trans (bindSink _ _ _ _)

theorem State.KeepsInvariants.addRecord {s : State} {p : AddP} (hp : p.inRange = true) :
    s.KeepsInvariants (s.addRecord s.freeHandle (addedRecord p)) := by
  rw [State.addRecord_eq]
  refine .trans ?_ (State.Keeps.bound _ _ _).toKeepsInvariants
  exact .newPath (fun hT => (State.freeHandle_spec hT.1).1) rfl rfl (addedRecord_ok hp)

@[simp] theorem State.markPath_cmd (s : State) (h : Nat) : (s.markPath h).cmd = s.cmd := by
  rcases s.markPath_cases h with he | ⟨_, _, _, he⟩ <;> rw [he]
  rfl

@[simp] theorem State.bound_cmd (s : State) (h : Nat) (p : PathRec) : (s.bound h p).cmd = s.cmd := by
  have hsource (u : State) (e : Option Endpoint) : (u.bindSource h p.k e).cmd = u.cmd := by
    unfold State.bindSource
    split <;> rfl
  have hsink (u : State) (e : Option Endpoint) : (u.bindSink h p.k e).cmd = u.cmd := by
    unfold State.bindSink
    split <;> rfl
  simp [State.bound, hsource, hsink]

namespace State.KeepsInvariants

variable {s : State}

theorem serveAdd (hx : s.cmd.phase ≠ .execution) (p : AddP) : s.KeepsInvariants (s.serveAdd p) := by
  unfold State.serveAdd
  split
  · exact (State.Keeps.answerCode hx _).toKeepsInvariants
  · split
    · exact (State.Keeps.answer hx (by simp [refusedBy])).toKeepsInvariants
    · refine (addRecord (by simpa using ‹¬ (!p.inRange) = true›)).trans (State.Keeps.answer ?_ (by simp)).toKeepsInvariants
      rw [State.addRecord_eq, State.bound_cmd]
      exact hx

end State.KeepsInvariants

/-- Every command but ADD PATH keeps every invariant and makes no record. -/
theorem State.Keeps.serve {s : State} {c : HostCmd} (hx : s.cmd.phase ≠ .execution) (hc : ∀ p, c ≠ .addPath p) :
    s.Keeps (s.serve c) := by
  cases c with
  | addPath p => exact absurd rfl (hc p)
  | start p => exact serveStart hx p
  | deletePath h => exact serveDelete hx h
  | enablePath h => exact serveEnable hx h
  | disablePath h => exact serveDisable hx h
  | movePath h form c b => exact serveMove hx h form c b
  | recentre h => exact serveForced hx h fun _ => Nat.zero_le _
  | nudge h dir count =>
    unfold State.serve State.serveNudge
    dsimp only
    split
    · exact answerCode hx _
    · exact serveForced hx h fun _ => Nat.zero_le _
  | squelch h flag => exact serveSquelch hx h flag
  | readPath h => exact withHandle hx fun p _ => answer hx (by simp [State.pathOut])
  | readCells first count => exact serveReadCells hx first count
  | labelScan p => exact serveLabelScan hx p
  | sense => exact serveSense hx
  | readConditions => exact serveReadConditions hx
  | setReport p => exact serveSetReport hx p
  | defaults => exact serveDefaults hx
  | quiet => exact serveQuiet hx
  | resume => exact serveResume hx
  | readStation => exact serveReadStation hx

namespace State.KeepsInvariants

variable {s : State}

theorem serve (hx : s.cmd.phase ≠ .execution) (c : HostCmd) : s.KeepsInvariants (s.serve c) := by
  by_cases hc : ∃ p, c = .addPath p
  · obtain ⟨p, rfl⟩ := hc
    exact serveAdd hx p
  · exact (State.Keeps.serve hx fun p hp => hc ⟨p, hp⟩).toKeepsInvariants

/-! ### Bytes (R182, R184) -/

theorem commandByte (hx : s.cmd.phase = .command) (b : Byte) : s.KeepsInvariants (s.commandByte b) := by
  have hne : s.cmd.phase ≠ .execution := by simp [hx]
  have hnone (u : State) (hu : u.cmd.phase = .command) : u.KeepsInvariants (u.setCmd { u.cmd with inProgress := none }) :=
    (State.Keeps.setInProgress hu).toKeepsInvariants
  unfold State.commandByte
  split
  · split
    · unfold State.addParameter
      split
      · exact (State.Keeps.setInProgress hx).toKeepsInvariants
      · split
        · exact (hnone s hx).trans (serve (by exact hne) _)
        · exact (State.Keeps.answerCode hne _).toKeepsInvariants
    · exact (State.Keeps.answerCode hne _).toKeepsInvariants
  · refine (hnone s hx).trans ?_
    unfold State.beginCommand
    split
    · exact (State.Keeps.answerCode (by exact hne) _).toKeepsInvariants
    · split
      · exact serve (by exact hne) _
      · exact (State.Keeps.answerCode (by exact hne) _).toKeepsInvariants
    · exact (State.Keeps.setInProgress (by exact hx)).toKeepsInvariants

theorem takeByte (s : State) (b : Byte) : s.KeepsInvariants (s.takeByte b) := by
  unfold State.takeByte
  split
  · exact commandByte ‹_› b
  · exact (State.Keeps.stopScan s _).toKeepsInvariants
  · rename_i hx
    exact (State.Keeps.discard fun _ => by simp [hx]).toKeepsInvariants.trans (commandByte rfl b)

theorem takeOne (s : State) : s.KeepsInvariants s.takeOne := by
  unfold State.takeOne
  split
  · exact .refl s
  · rename_i b r hin
    refine .trans (State.Keeps.setInFifo fun h => ?_).toKeepsInvariants (takeByte _ b)
    rw [hin, List.length_cons] at h
    omega

theorem takeMany (n : Nat) (s : State) : s.KeepsInvariants (s.takeMany n) := by
  induction n generalizing s with
  | zero => exact .refl s
  | succ n ih => exact (takeOne s).trans (ih _)

theorem drain (s : State) : s.KeepsInvariants s.drain := takeMany _ s

end State.KeepsInvariants

@[simp] theorem State.stopScan_scan (s : State) (t : Term) : (s.stopScan t).crx.scan = none := by
  unfold State.stopScan
  split
  · assumption
  · rfl

namespace State.KeepsInvariants

variable {s : State}

theorem hostCommand (s : State) (c : HostCmd) : s.KeepsInvariants (s.hostCommand c) := by
  unfold State.hostCommand
  refine (drain s).trans ?_
  generalize s.drain = u
  dsimp only
  split
  · rename_i hx
    exact (State.Keeps.setInProgress hx).toKeepsInvariants.trans (serve (by simp [hx]) c)
  · rename_i hx
    exact (State.Keeps.discard fun _ => by simp [hx]).toKeepsInvariants.trans (serve (by simp [Cmd.discard]) c)
  · refine (State.Keeps.stopScan u .aborted).toKeepsInvariants.trans ?_
    split
    · exact .refl _
    · refine (State.Keeps.thenCode (State.Keeps.discard fun hport hx => ?_) (by simp [Cmd.discard])).toKeepsInvariants
      simpa using hport.1.mp hx

end State.KeepsInvariants

end Sys2Proof.Machine

/-! ## Proofs: what a frame start and the timer's rows keep -/

namespace Sys2Proof.Machine

theorem wf_mapCells (f : Nat → CellEntry → CellEntry) {m : Sparse CellEntry} (hm : Sparse.wf .free m = true) :
    Sparse.wf .free (mapCells f m) = true := by
  simp only [Sparse.wf, Bool.and_eq_true, List.all_eq_true, decide_eq_true_eq] at *
  refine ⟨Sparse.rising_filter _ _ (Sparse.rising_mapVals _ _ hm.1), fun e he => ?_⟩
  simpa using (List.mem_filter.mp he).2

theorem PathRec.writeLabel_kept (b : Bool) (n : Nat) (p : PathRec) : p.Kept b (p.writeLabel n) := by
  unfold PathRec.writeLabel
  split
  · exact { PathRec.Kept.refl b p with }
  · exact .refl b p

theorem State.freshPath_kept (s : State) (b : Bool) (p : PathRec) : p.Kept b (s.freshPath p) :=
  { PathRec.Kept.refl b p with }

namespace State.Reworks

variable {H : Nat → Prop} {s : State}

theorem mapCells (f : Nat → CellEntry → CellEntry) :
    State.Reworks H s (s.setHwy { s.hwy with cells := Machine.mapCells f s.hwy.cells }) :=
  .setHwy (.of_cells (wf_mapCells f))

/-- The frame that ends at HWY and the path table, before the samples of CND. -/
theorem endRecords (s : State) : State.Reworks (fun _ => True) s (s.silentCells.mapPaths (fun _ p =>
    ((p.sinkRaws s.silentCells.hwy.passed).watchFrame s.silentCells.mayCreate s.silentCells.ftm.frame).squelchOnset)) :=
  .trans (mapCells _) (.mapPaths (fun _ => trivial) fun _ p _ =>
    ((p.sinkRaws_kept _ _).trans (PathRec.watchFrame_kept _ _ _ _)).trans (PathRec.squelchOnset_kept _ _))

end State.Reworks

/-- The warm count at a boundary (R101). -/
def State.warmed (s : State) : State :=
  if s.hwy.station = .warming then
    if 2 ≤ s.hwy.warm + 1 then s.setHwy { s.hwy with warm := 2, station := .joined }
    else s.setHwy { s.hwy with warm := s.hwy.warm + 1 }
  else s

/-- The indication that a realignment owes, at a boundary in TRACKING (R8, R103). -/
def State.restored (s : State) : State :=
  if s.ftm.restoreDue && s.ftm.timer == .tracking then
    (s.setFtm { s.ftm with restoreDue := false }).timingRestored
  else s

theorem State.stationBoundary_eq (s : State) :
    s.stationBoundary = (s.setHwy { s.hwy with msgRaised := false }).warmed.restored := rfl

/-- The cell map at a boundary (R118). -/
def State.agedCells (s : State) : State := s.setHwy { s.hwy with cells := mapCells (fun _ e => e.boundary) s.hwy.cells }

/-- The boundary before the steps of the records: the count and CND, the squelch of each record, and the station. -/
def State.counted (s : State) : State :=
  (s.countMultiframe.mapPaths (fun _ p => p.squelchBoundary s.countMultiframe.cbl.holdoff)).stationBoundary

/-- The steps of a boundary on the records and the cell map, up to the cell choice (R118 to R154). -/
def State.stepRecords (s : State) : State :=
  (((((((((((s.forPaths State.undoBerths).agedCells.forPaths State.backoffStep).mapPaths
    (fun _ p => p.cleanBoundary)).forPaths State.lossStep).forPaths State.sinkEffective).forPaths
    State.claimEffective).forPaths State.monitorStep).forPaths State.stepCells).forPaths State.stepSinkMove).forPaths
    State.stepBerths).forPaths State.beginBerths).forPaths State.adopt

/-- The cell choice, which only a JOINED station makes (R124). -/
def State.chosen (s : State) : State := if s.hwy.station = .joined then s.forPaths State.chooseCells else s

theorem State.boundary_eq (s : State) : s.boundary =
    (s.counted.stepRecords.mapPaths (fun _ p => p.localEnable)).chosen.mapPaths (fun _ p => p.restartMultiframe) := by
  unfold State.boundary State.chosen State.stepRecords State.agedCells State.counted
  with_reducible rfl

theorem State.Reworks.stepRecords (s : State) : State.Reworks (fun _ => True) s s.stepRecords := by
  unfold State.stepRecords
  refine .trans ?_ (.forPaths (fun _ _ => .adopt rfl) _)
  refine .trans ?_ (.forPaths (fun _ _ => .beginBerths rfl) _)
  refine .trans ?_ (.forPaths (fun _ _ => .stepBerths rfl) _)
  refine .trans ?_ (.forPaths (fun _ _ => .stepSinkMove rfl) _)
  refine .trans ?_ (.forPaths (fun _ _ => .stepCells rfl) _)
  refine .trans ?_ (.forPaths (fun _ _ => .monitorStep rfl) _)
  refine .trans ?_ (.forPaths (fun _ _ => .claimEffective rfl) _)
  refine .trans ?_ (.forPaths (fun _ _ => .sinkEffective rfl) _)
  refine .trans ?_ (.forPaths (fun _ _ => .lossStep rfl) _)
  refine .trans ?_ (.mapPaths (fun _ => trivial) fun _ p _ => p.cleanBoundary_kept _)
  refine .trans ?_ (.forPaths (fun _ _ => .backoffStep rfl) _)
  exact .trans (.forPaths (fun _ _ => .undoBerths rfl) _) (.mapCells _)

theorem State.Reworks.chosen (s : State) : State.Reworks (fun _ => True) s s.chosen := by
  unfold State.chosen
  split
  · exact .forPaths (fun _ _ => .chooseCells rfl) _
  · exact .refl s

/-- After the count, CND and the station, a boundary changes records, the owner maps and HWY's own fields. -/
theorem State.boundary_reworks (s : State) : State.Reworks (fun _ => True) s.counted s.boundary := by
  rw [State.boundary_eq]
  refine .trans ?_ (.mapPaths (fun _ => trivial) fun _ p _ => p.restartMultiframe_kept _)
  refine .trans ?_ (.chosen _)
  exact .trans (.stepRecords _) (.mapPaths (fun _ => trivial) fun _ p _ => p.localEnable_kept _)

namespace State.Keeps

variable {s : State}

theorem endFrame (s : State) : s.Keeps s.endFrame := (State.Reworks.endRecords s).keeps.trans (sampleFrame _)

/-! ### The boundary -/

theorem countMultiframe (s : State) : s.Keeps s.countMultiframe := by
  unfold State.countMultiframe
  refine .trans (setCnd (s.cnd.boundary_kept _)) (.ite fun _ => setFtm ?_)
  rintro ⟨h1, _, hrest⟩
  exact ⟨h1, Nat.mod_lt _ (by decide), hrest⟩

theorem setWarm {w : Nat} (hw : w ≤ 2) : s.Keeps (s.setHwy { s.hwy with warm := w }) := by
  refine ⟨⟨?_, id, id, id, fun _ _ => id, fun _ => id, fun _ => id⟩, fun _ => .of_path_eq fun _ => rfl⟩
  rintro ⟨h1, h2, h3, h4, h5, h6, h7, _, hrest⟩
  exact ⟨h1, h2, h3, h4, h5, h6, h7, hw, hrest⟩

/-- A WARMING station becomes JOINED (R101). -/
theorem join (hs : s.hwy.station = .warming) : s.Keeps (s.setHwy { s.hwy with warm := 2, station := .joined }) :=
  setStation (by simp [hs]) (.inr rfl) (Nat.le_refl _) fun _ => rfl

theorem warmed (s : State) : s.Keeps s.warmed := by
  unfold State.warmed
  split
  · split
    · exact join ‹_›
    · exact setWarm (by omega)
  · exact .refl s

theorem restored (s : State) : s.Keeps s.restored := by
  unfold State.restored
  split
  · refine .trans ?_ (timingRestored _)
    exact setFtm id
  · exact .refl s

theorem stationBoundary (s : State) : s.Keeps s.stationBoundary := by
  rw [State.stationBoundary_eq]
  refine .trans (.trans ?_ (warmed _)) (restored _)
  exact setHwy (H := fun _ => False) { Hwy.Kept.refl _ s.silent s.hwy with }

theorem counted (s : State) : s.Keeps s.counted :=
  (countMultiframe s).trans (.trans (.mapPaths fun _ p _ => p.squelchBoundary_kept _ _) (stationBoundary _))

theorem boundary (s : State) : s.Keeps s.boundary := (counted s).trans s.boundary_reworks.keeps

/-! ### The frame that begins -/

theorem clientTake (s : State) (q h : Nat) : s.Keeps (s.clientTake q h) := by
  unfold State.clientTake
  split
  · exact .refl s
  · rename_i p hp
    have hset : s.Keeps (s.setPath h { p with carry := (takeCarry (.client q) p.carry).2 }) :=
      .setPath hp (.of_carry fun hq => (takeCarry_length _ _).trans hq)
    dsimp only
    split
    · exact hset.trans (setTx _ _ _)
    · exact hset

theorem clientFrame (s : State) (q : Nat) : s.Keeps (s.clientFrame q) := by
  unfold State.clientFrame
  split
  · exact setTx _ _ _
  · split
    · exact setTx _ _ _
    · split
      · split
        · exact clientTake _ _ _
        · split
          · exact .refl s
          · exact setTx _ _ _
      · dsimp only
        split
        · exact (setTx _ _ _).trans (clientTake _ _ _)
        · exact setTx _ _ _

theorem owesCapture (s : State) (p : PathRec) : s.Keeps (s.owesCapture p) := by
  unfold State.owesCapture
  split
  · exact .ite fun _ => setRx id
  · exact .refl s

theorem takeDrives (s : State) : s.Keeps s.takeDrives := by
  refine ⟨⟨id, id, id, ?_, fun _ _ => id, fun _ => id, fun _ => id⟩, fun _ => .of_path_eq fun _ => rfl⟩
  rintro ⟨h1, h2, h3, _⟩
  refine ⟨h1, h2, h3, fun hd => ?_⟩
  by_contra hc
  exact hd (if_neg hc)

theorem takePlan (s : State) : s.Keeps s.takePlan := .setCbl id id

theorem freshPorts (s : State) : s.Keeps (s.upTo 32 fun q s => s.setRx q ((s.rx q).fresh (s.rxPath q).isSome)) := by
  refine .upTo _ (fun q u _ => ?_) s
  exact setRx id

theorem freshCarriers (s : State) : s.Keeps (s.upTo 4 fun c s => s.setCarrier c (s.carrier c).fresh) := by
  refine .upTo _ (fun q u _ => ?_) s
  exact setCarrier id

theorem setRestoreDue (s : State) (b : Bool) : s.Keeps (s.setFtm { s.ftm with restoreDue := b }) := setFtm id

theorem beginFrame (s : State) (n : Nat) : s.Keeps (s.beginFrame n) := by
  unfold State.beginFrame
  extract_lets s1 s2 s3 s4 s5 s6 s7 s8 s9
  have h1 : s.Keeps s1 := .mapPaths fun _ p _ => (p.writeLabel_kept _ n).trans { PathRec.Kept.refl _ _ with }
  have h2 : s1.Keeps s2 := (takePlan s1).trans State.Reworks.settleDebts.keeps
  have h3 : s2.Keeps s3 := .forPaths (fun _ _ => (State.Reworks.sinkContent (H := fun _ => True) trivial).keeps) _
  have h4 : s3.Keeps s4 := .upTo _ (fun q u _ => clientFrame u q) _
  have h5 : s4.Keeps s5 := .forPaths (fun h u => by
    split
    · exact owesCapture u _
    · exact .refl u) _
  have h6 : s5.Keeps s6 := takeDrives s5
  have h7 : s6.Keeps s7 := .mapPaths fun _ p _ => s6.freshPath_kept _ p
  have h8 : s7.Keeps s8 := .mapPaths fun _ p _ =>
    PathRec.kept_mapFil _ (g := fun f => { f with defectSeen := f.defectSeen || p.srcBadSeen }) fun _ hf => hf
  have h9 : s8.Keeps s9 := freshPorts s8
  have h10 := freshCarriers s9
  exact h1.trans (h2.trans (h3.trans (h4.trans (h5.trans (h6.trans (h7.trans (h8.trans (h9.trans h10))))))))

theorem startFrame {num : Nat} (hn : num < 16) (s : State) (t : Nat) : s.Keeps (s.startFrame t num) := by
  unfold State.startFrame
  refine .trans ?_ (beginFrame _ _)
  refine .trans ?_ (.ite fun _ => boundary _)
  refine .trans ?_ State.Reworks.ageQueue.keeps
  refine (endFrame s).trans (setFtm ?_)
  rintro ⟨_, hrest⟩
  exact ⟨hn, hrest⟩

theorem startNext (s : State) (t : Nat) : s.Keeps (s.startFrame t s.nextFrame) :=
  startFrame (by unfold State.nextFrame; omega) s t

/-! ### The frame timer (R1 to R8) -/

theorem enterHoldover (s : State) : s.Keeps s.enterHoldover := by
  refine .trans (setFtm ?_) (muteRequest _)
  rintro ⟨h1, h2, _, _, _, h6, h7⟩
  exact ⟨h1, h2, Nat.zero_lt_succ _, Nat.zero_lt_succ _, Nat.zero_le _, satInc_le _ _, h7⟩

theorem trackingMiss (s : State) : s.Keeps s.trackingMiss := by
  unfold State.trackingMiss
  split
  · exact enterHoldover s
  · refine setFtm ?_
    rintro ⟨h1, h2, _, hrest⟩
    exact ⟨h1, h2, by simp only; omega, hrest⟩

theorem trackingReturn (s : State) (t : Nat) : s.Keeps (s.trackingReturn t) := by
  unfold State.trackingReturn
  refine .trans ?_ (timingRestored _)
  dsimp only
  have hset : s.Keeps (s.setFtm { s.ftm with timer := .tracking, miss := 0, good := 0, anchor := none, lastPulse := some t }) := by
    refine setFtm ?_
    rintro ⟨h1, h2, _, _, h5, hrest⟩
    exact ⟨h1, h2, Nat.zero_lt_succ _, Nat.zero_lt_succ _, h5, hrest⟩
  split
  · exact hset.trans (setFtm id)
  · exact hset.trans (startNext _ t)

theorem realign (s : State) (t : Nat) : s.Keeps (s.realign t) := by
  unfold State.realign
  refine .trans ?_ (setRestoreDue _ true)
  refine .trans ?_ (startFrame (num := 0) (by decide) _ t)
  refine .trans ?_ (muteRequest _)
  refine .trans (setFtm ?_) (.ite fun _ => timingRestored _)
  rintro ⟨h1, h2, h3, h4, _, h6, _⟩
  exact ⟨h1, h2, h3, h4, Nat.zero_le _, h6, satInc_le _ _⟩

theorem trackingPulse (s : State) (t : Nat) (marker : Bool) : s.Keeps (s.trackingPulse t marker) := by
  unfold State.trackingPulse
  extract_lets _ u num
  have hu : s.Keeps u := by
    refine setFtm ?_
    rintro ⟨h1, h2, _, hrest⟩
    exact ⟨h1, h2, Nat.zero_lt_succ _, hrest⟩
  refine hu.trans ?_
  split
  · exact realign u t
  · refine .trans (setFtm ?_) (startFrame (by simp only [num, State.nextFrame]; omega) _ t)
    rintro ⟨h1, h2, h3, h4, h5, h6, h7⟩
    split
    · unfold Ftm.examine
      split
      · exact ⟨h1, h2, h3, h4, Nat.zero_le _, h6, h7⟩
      · exact ⟨h1, h2, h3, h4, satInc_le _ _, h6, h7⟩
    · exact ⟨h1, h2, h3, h4, h5, h6, h7⟩

theorem holdoverPulse (s : State) (t : Nat) : s.Keeps (s.holdoverPulse t) := by
  unfold State.holdoverPulse
  split
  · exact trackingReturn s t
  · refine setFtm ?_
    rintro ⟨h1, h2, h3, _, hrest⟩
    exact ⟨h1, h2, h3, by simp only; omega, hrest⟩

/-- The good count begins again, and the window moves. -/
theorem setWindow (s : State) (a : Option Nat) :
    s.Keeps (s.setFtm { s.ftm with good := 0, anchor := a, lastPulse := none }) := by
  refine setFtm ?_
  rintro ⟨h1, h2, h3, _, hrest⟩
  exact ⟨h1, h2, h3, Nat.zero_lt_succ _, hrest⟩

/-! ### Decision points (R71) -/

theorem handOn (s : State) (h : Nat) (p : PathRec) (bad : Bool) (c : Content) : s.Keeps (s.handOn h p bad c) := by
  have hjoin : s.Keeps (s.carryJoin h c) := (State.Reworks.carryJoin (H := (· = h)) rfl c).keeps
  unfold State.handOn
  split
  · exact (State.Reworks.handHighway (H := (· = h)) rfl p bad c).keeps
  · dsimp only
    split
    · split
      · exact hjoin.trans (clientTake _ _ _)
      · exact hjoin
    · exact hjoin

theorem decisionPoint {h : Nat} {p : PathRec} {f : Fil} (hp : s.path h = some p) (hf : p.fil = some f) :
    s.Keeps (s.decisionPoint h p f) := by
  unfold State.decisionPoint
  extract_lets bad _ d u v w
  have hu : s.Keeps u := by
    refine .setPath hp (.trans (.of_fil (g := some d.fil) (by rw [hf]; rfl) fun hok g hg => ?_)
      { PathRec.Kept.refl _ _ with })
    rw [Option.some.injEq] at hg
    subst hg
    have hreads : ({ f.finishReads p.k with defectSeen := bad } : Fil).Ok p.k := Fil.readMany_ok _ (hok f hf)
    exact Fil.decide_ok _ hreads
  have hv : u.Keeps v := .ite fun _ => event u _ _
  have hw : v.Keeps w := by
    simp only [w]
    split
    · exact .post _ _ _
    · exact .refl v
  exact hu.trans (hv.trans (hw.trans ((handOn w h p bad d.content).trans (markPath _ h))))

/-! ### Group starts, bursts and messages -/

theorem setGroupOut (s : State) (c b : Nat) (l : List Byte) : s.Keeps (s.setGroupOut c b l) :=
  .setCbl id (Sparse.rising_insert _ _ _)

theorem startGroup (s : State) (g : GroupPlan) : s.Keeps (s.startGroup g) := by
  unfold State.startGroup
  dsimp only
  split
  · exact setGroupOut _ _ _ _
  · split
    · exact setGroupOut _ _ _ _
    · rename_i p hp
      split
      · exact setGroupOut _ _ _ _
      · refine .trans (setPath hp (.of_carry fun hq => ?_)) (setGroupOut _ _ _ _)
        exact (takeCarry_length _ _).trans hq

theorem failMessage (s : State) : s.Keeps s.failMessage := by
  unfold State.failMessage
  have hset : s.Keeps (s.setHwy { s.hwy with msgCheck := satInc 65535 s.hwy.msgCheck, msgRaised := true }) :=
    setHwy (H := fun _ => False) { Hwy.Kept.refl _ s.silent s.hwy with msgCheck := fun _ => satInc_le _ _ }
  dsimp only
  split
  · exact hset
  · exact hset.trans (event _ _ _)

theorem hearOrFail (s : State) (m : Msg) : s.Keeps (s.hearOrFail m) := by
  unfold State.hearOrFail
  split
  · exact (State.Reworks.hear m).keeps
  · exact failMessage s

theorem listenBurst (s : State) (line : BitVec 51) : s.Keeps (s.listenBurst line) := by
  unfold State.listenBurst
  split
  · exact .refl s
  · split
    · exact (State.Reworks.hear _).keeps
    · exact failMessage s

theorem burst (s : State) (others noise : BitVec 51) : s.Keeps (s.burst others noise) := by
  unfold State.burst
  split
  · refine .trans ?_ (listenBurst _ _)
    exact setHwy (H := fun _ => False) { Hwy.Kept.refl _ s.silent s.hwy with }
  · extract_lets line _ u
    have hu : s.Keeps u := setHwy (H := fun _ => False) { Hwy.Kept.refl _ s.silent s.hwy with }
    refine hu.trans ?_
    split
    · exact (State.Reworks.winBurst _).keeps
    · exact listenBurst _ _

end State.Keeps

end Sys2Proof.Machine

/-! ## Proofs: what every command keeps, and the invariants of a step -/

namespace Sys2Proof

/-- The commands by which the host writes a command or a byte of one to the port. -/
def Instr.ofHost : Instr → Bool
  | .start _ | .addPath _ | .deletePath _ | .enablePath _ | .disablePath _ | .movePath _ _ _ _ | .recentre _
  | .nudge _ _ _ | .squelch _ _ | .readPath _ | .readCells _ _ | .labelScan _ | .sense | .readConditions | .setReport _
  | .defaults | .quiet | .resume | .readStation | .parameterByte _ | .unknownCommand _ => true
  | _ => false

end Sys2Proof

namespace Sys2Proof.Machine

/-! ### The state after device reset -/

theorem State.reset_tablesOk : State.reset.TablesOk := by
  unfold State.TablesOk
  decide

theorem State.reset_bounded : State.reset.Bounded := by
  unfold State.Bounded
  decide

theorem State.reset_port : State.reset.PortOk := by
  unfold State.PortOk
  decide

theorem State.reset_path (h : Nat) : State.reset.path h = none := rfl

theorem State.reset_station : State.reset.StationOk := by
  unfold State.StationOk
  decide

theorem State.reset_mute : State.reset.MuteOk := fun _ h p hp => by simp [State.reset_path] at hp

theorem State.reset_completions : State.reset.CompletionsOk :=
  ⟨by decide, by simp [State.reset], fun h p hp => by simp [State.reset_path] at hp⟩

theorem State.reset_paths : State.reset.PathsOk := fun h p hp => by simp [State.reset_path] at hp

/-- After device reset every invariant holds, and there is no record. -/
theorem State.Keeps.deviceReset (s : State) : s.Keeps { State.reset with pending := s.pending } :=
  ⟨⟨fun _ => State.reset_bounded, fun _ => State.reset_port, fun _ => State.reset_tablesOk, fun _ => State.reset_station,
    fun _ _ _ => State.reset_mute, fun _ _ => State.reset_completions, fun _ _ => State.reset_paths⟩,
    fun _ h q hq => by cases hq⟩

/-! ### The rows that run no command of the host -/

/-- A row that faults under a condition and else answers a state. -/
theorem next_of_guard {c : Prop} [Decidable c] {f : Fault} {u t : State}
    (h : (if c then Host.Outcome.fault f else .next u : Host.Outcome State Fault Refusal) = .next t) : u = t := by
  split at h
  · cases h
  · exact Host.Outcome.next.inj h

/-- A row of a client port: it faults above port 31, acts under a condition, and else leaves the state. -/
theorem next_of_client {c d : Prop} [Decidable c] [Decidable d] {f : Fault} {s u t : State}
    (h : (if c then Host.Outcome.fault f else if d then .next u else .next s : Host.Outcome State Fault Refusal) = .next t) :
    (if d then u else s) = t := by
  split at h
  · cases h
  · split at h
    · rw [if_pos ‹_›]; exact Host.Outcome.next.inj h
    · rw [if_neg ‹_›]; exact Host.Outcome.next.inj h

namespace State.Keeps

variable {s t : State}

theorem execInWindowPulse {n : Nat} {marker : Bool} (h : execInWindowPulse n marker s = .next t) : s.Keeps t := by
  unfold Machine.execInWindowPulse at h
  split at h
  · rw [← Host.Outcome.next.inj h]
    split
    · exact trackingPulse s n marker
    · exact holdoverPulse s n
  · exact Host.Outcome.next.inj h ▸ .refl s

theorem execOutOfWindowPulse {n : Nat} {marker : Bool} (h : execOutOfWindowPulse n marker s = .next t) : s.Keeps t := by
  unfold Machine.execOutOfWindowPulse at h
  split at h
  · exact Host.Outcome.next.inj h ▸ .refl s
  · rw [← Host.Outcome.next.inj h]
    split
    · exact trackingMiss s
    · exact setWindow s _

theorem execMissingPulse (h : execMissingPulse s = .next t) : s.Keeps t := by
  rw [← Host.Outcome.next.inj h]
  split
  · exact (startNext s _).trans (trackingMiss _)
  · split
    · exact .refl s
    · exact setWindow s _

theorem execDecisionPoint {g : Nat} (h : execDecisionPoint g s = .next t) : s.Keeps t := by
  unfold Machine.execDecisionPoint at h
  split at h
  · exact Host.Outcome.next.inj h ▸ .refl s
  · rename_i p hp
    split at h
    · exact Host.Outcome.next.inj h ▸ .refl s
    · exact Host.Outcome.next.inj h ▸ .ite fun _ => decisionPoint hp ‹_›

theorem execWindowEnd (s : State) (g : Nat) :
    s.Keeps (s.modFil g (fun p f => if 8000 ≤ f.wCount + 1 then f.windowEnd p.k else f)) := by
  refine modFil fun p f hf => ?_
  split
  · exact Fil.windowEnd_ok (.inl hf)
  · exact hf

theorem execStoreRead (s : State) (g : Nat) :
    s.Keeps (s.modFil g (fun p f => if f.unread p.k = 0 then f else f.readOne)) := by
  refine modFil fun p f hf => ?_
  split
  · exact hf
  · exact Fil.readOne_ok hf

theorem execFillWrite (s : State) (g : Nat) : s.Keeps (s.modPath g (fun p =>
    if s.notDelivering p then
      { p with srcBadSeen := true, fil := p.fil.map (fun f => { f with defectSeen := true }.write p.k 0xFF) }
    else p)) := by
  refine modPath fun p _ => ?_
  split
  · refine .trans (PathRec.kept_mapFil _ (g := fun f => { f with defectSeen := true }.write p.k 0xFF) fun f hf => ?_)
      { PathRec.Kept.refl _ _ with }
    have hmarked : ({ f with defectSeen := true } : Fil).Ok p.k := hf
    exact Fil.write_ok hmarked _
  · exact .refl _ p

theorem execCarrierByteReceived {c : Nat} {b : Byte} {transition : Bool}
    (h : execCarrierByteReceived c b transition s = .next t) : s.Keeps t := by
  unfold Machine.execCarrierByteReceived at h
  split at h
  · cases h
  · dsimp only at h
    split at h
    · exact Host.Outcome.next.inj h ▸ .ite fun _ => putCarrier fun hr => ⟨hr.1, hr.2.1, Nat.zero_le _, hr.2.2.2⟩
    · rw [← Host.Outcome.next.inj h]
      have hquiet : (if transition = true then 0 else satInc 32 (s.carrier c).quiet) ≤ 32 := by
        split
        · exact Nat.zero_le _
        · exact satInc_le _ _
      have hput : s.Keeps (s.putCarrier c { (s.carrier c).byte b with
          quiet := if transition then 0 else satInc 32 (s.carrier c).quiet }) := putCarrier fun hr => by
        have hb := Carrier.byte_ok b hr
        exact ⟨hb.1, hb.2.1, hquiet, hb.2.2.2⟩
      exact hput.trans (.ite fun _ => carrierSignalLost _ c)

theorem execCarrierFrameReceived {c : Nat} {f : RxFrame} (h : execCarrierFrameReceived c f s = .next t) : s.Keeps t := by
  unfold Machine.execCarrierFrameReceived at h
  split at h
  · cases h
  · dsimp only at h
    split at h
    · split at h
      · have hput : s.Keeps (s.putCarrier c { s.carrier c with miss := 0 }) :=
          putCarrier fun hr => ⟨hr.1, Nat.zero_le _, hr.2.2⟩
        exact Host.Outcome.next.inj h ▸ hput.trans (readFrame _ c f)
      · split at h
        · exact Host.Outcome.next.inj h ▸ carrierDown Carrier.hunting_ok
        · rename_i hmiss
          have hput : s.Keeps (s.putCarrier c { s.carrier c with miss := (s.carrier c).miss + 1 }) :=
            putCarrier fun hr => ⟨hr.1, by simp only; omega, hr.2.2⟩
          exact Host.Outcome.next.inj h ▸ hput.trans (readFrame _ c f)
    · exact Host.Outcome.next.inj h ▸ .refl s

theorem execGroupStart {c b : Nat} (h : execGroupStart c b s = .next t) : s.Keeps t := by
  unfold Machine.execGroupStart at h
  split at h
  · cases h
  · split at h
    · cases h
    · split at h
      · exact Host.Outcome.next.inj h ▸ setGroupOut s _ _ _
      · exact Host.Outcome.next.inj h ▸ .ite fun _ => startGroup s _

theorem execSquelchLift (s : State) (g : Nat) : s.Keeps (s.modPath g (fun p =>
    if p.hasSink && p.mayLift s.cbl.holdoff then { p with sq := { p.sq with on := false } } else p)) := by
  refine modPath fun p _ => ?_
  split
  · exact .of_sq id
  · exact .refl _ p

theorem execCleanCountExpiry (s : State) (g : Nat) :
    s.Keeps (s.modPath g (fun p => if 64 ≤ p.hw.clean + 1 then p.cleanBoundary else p)) := by
  refine modPath fun p _ => ?_
  split
  · exact p.cleanBoundary_kept _
  · exact .refl _ p

theorem dataRead (s : State) : s.Keeps (s.setCmd s.cmd.read) := by
  unfold Cmd.read
  split
  · exact .setCmd rfl id id id
  · rename_i b r hout
    have hphase (hport : s.PortOk) : s.cmd.phase = .result := hport.2.1.mpr (by simp [hout])
    dsimp only
    split
    · refine .setCmd rfl id (fun _ => Nat.zero_le _) fun hport => ?_
      have hscan : s.crx.scan.isSome = false := by
        rw [← Bool.not_eq_true, ← hport.1, hphase hport]
        simp
      simp [State.PortOk, hscan, hport.2.2.2.2 (by simp [hphase hport])]
    · rename_i hne
      refine .setCmd rfl id (fun hlen => ?_) fun hport => ?_
      · rw [hout, List.length_cons] at hlen
        simp only [List.length_append, List.length_take]
        omega
      · have hresult := hphase hport
        obtain ⟨h1, _, _, _, h5⟩ := hport
        exact ⟨h1, iff_of_true hresult (by simpa using hne), iff_of_true hresult rfl, fun _ => rfl, h5⟩

theorem scanAbort (s : State) : s.Keeps (match s.cmd.phase with
    | .execution => (s.setCmd { s.cmd with inFifo := s.cmd.inFifo.drop 1 }).stopScan .aborted
    | _ => s) := by
  split
  · exact (setInFifo fun h => by simp only [List.length_drop]; omega).trans (stopScan _ _)
  · exact .refl s

theorem execSoakExpiry {k : CondKind} {o : CondObj} (h : execSoakExpiry k o s = .next t) : s.Keeps t := by
  rw [← Host.Outcome.next.inj h]
  split
  · exact .refl s
  · rename_i i hi
    split
    · refine .trans (u := (s.setInst i.flip).setCnd _) (setCnd ?_) (setCnd (Cnd.edge_kept _ _ _ _))
      exact s.cnd.setInst_kept _ fun _ => ⟨Nat.zero_le _, Nat.zero_le _⟩
    · exact .refl s

theorem execRepeatExpiry {k : CondKind} {o : CondObj} (h : execRepeatExpiry k o s = .next t) : s.Keeps t := by
  rw [← Host.Outcome.next.inj h]
  split
  · exact .refl s
  · rename_i i hi
    have hmem : (condKey k o, i) ∈ s.cnd.insts := Sparse.mem_of_find (Option.filter_eq_some_iff.mp hi).1
    split
    · split
      · rename_i j e he
        refine .trans (u := (s.setInst j).setCnd _) (setCnd ?_) (setCnd (Cnd.edge_kept _ _ _ _))
        refine s.cnd.setInst_kept _ fun hc => ?_
        unfold Inst.repeatStep at he
        split at he <;> simp only [Prod.mk.injEq, reduceCtorEq, and_false] at he
        exact he.1 ▸ ⟨(hc _ hmem).1, Nat.zero_le _⟩
      · exact .refl s
    · exact .refl s

/-- Every row but the host's commands and bytes keeps every invariant, and makes no record. -/
theorem exec {c : Instr} (hc : c.ofHost = false) (h : exec c s = .next t) : s.Keeps t := by
  have hrework {u : State} (hr : State.Reworks (fun _ => True) s u) (hu : u = t) : s.Keeps t := hu ▸ hr.keeps
  have of_eq {u : State} (hk : s.Keeps u) (hu : u = t) : s.Keeps t := hu ▸ hk
  cases c with
  | start | addPath | deletePath | enablePath | disablePath | movePath | recentre | nudge | squelch | readPath
  | readCells | labelScan | sense | readConditions | setReport | defaults | quiet | resume | readStation | parameterByte
  | unknownCommand => cases hc
  | deviceReset => exact of_eq (.deviceReset s) (Host.Outcome.next.inj h)
  | inWindowPulse n marker => exact execInWindowPulse h
  | outOfWindowPulse n marker => exact execOutOfWindowPulse (marker := marker) h
  | missingPulse => exact execMissingPulse h
  | holdoverEntry => exact of_eq (.ite fun _ => enterHoldover s) (Host.Outcome.next.inj h)
  | trackingReturn n => exact of_eq (.ite fun _ => trackingReturn s n) (Host.Outcome.next.inj h)
  | frameStart => exact of_eq (startNext s _) (Host.Outcome.next.inj h)
  | decisionPoint g => exact execDecisionPoint h
  | windowEnd g => exact of_eq (execWindowEnd s g) (Host.Outcome.next.inj h)
  | storeRead g => exact of_eq (execStoreRead s g) (Host.Outcome.next.inj h)
  | inputStageWrite g => exact of_eq (modFil fun p f hf => Fil.stageWrite_ok hf) (Host.Outcome.next.inj h)
  | fillWrite g => exact of_eq (execFillWrite s g) (Host.Outcome.next.inj h)
  | clientByteReceived p b transition n => exact of_eq (.ite fun _ => clientByte s p b transition n) (next_of_client h)
  | clientLosOnset p =>
    exact of_eq (.ite fun _ => .trans (putRx fun _ => RxSide.loseSignal_ok _) (markPort _ _)) (next_of_client h)
  | clientLosClear p =>
    refine of_eq (.ite fun _ => ?_) (next_of_client h)
    refine .trans ?_ (markPort _ _)
    exact putRx fun hr => ⟨hr.1, hr.2.1, Nat.zero_le _⟩
  | clientAligned p maint n =>
    exact of_eq (.ite fun _ => .trans (.trans (putRx fun hr => RxSide.word_ok _ hr) (capture _ _ _)) (markPort _ _))
      (next_of_client h)
  | clientAlignmentLoss p =>
    exact of_eq (.ite fun _ => .trans (putRx RxSide.hunting_ok) (markPort _ _)) (next_of_client h)
  | carrierByteReceived c b transition => exact execCarrierByteReceived h
  | carrierLosOnset c =>
    refine of_eq ?_ (next_of_guard h)
    split
    · exact .refl s
    · exact carrierSignalLost s c
  | carrierLosClear c =>
    refine of_eq (.ite fun _ => ?_) (next_of_guard h)
    exact putCarrier fun hr => ⟨hr.1, hr.2.1, Nat.zero_le _, hr.2.2.2⟩
  | carrierAligned c => exact of_eq (.ite fun _ => putCarrier Carrier.confirmed_ok) (next_of_guard h)
  | carrierAlignmentLoss c => exact of_eq (.ite fun _ => carrierDown Carrier.hunting_ok) (next_of_guard h)
  | carrierFrameReceived c f => exact execCarrierFrameReceived h
  | scanStall =>
    refine of_eq ?_ (Host.Outcome.next.inj h)
    split
    · exact .refl s
    · exact .ite fun _ => stopScan s _
  | groupStart c b => exact execGroupStart h
  | squelchLift g => exact of_eq (execSquelchLift s g) (Host.Outcome.next.inj h)
  | answerDrop => exact (State.Reworks.execAnswerDrop h).keeps
  | controlBurst others noise => exact of_eq (burst s others noise) (Host.Outcome.next.inj h)
  | claim m => exact of_eq (hearOrFail s _) (Host.Outcome.next.inj h)
  | accept m => exact of_eq (hearOrFail s _) (Host.Outcome.next.inj h)
  | refuse m r => exact of_eq (hearOrFail s _) (Host.Outcome.next.inj h)
  | release m r => exact of_eq (hearOrFail s _) (Host.Outcome.next.inj h)
  | highwayCell x others noise payload => exact (State.Reworks.execHighwayCell h).keeps
  | backoffEnd g =>
    refine hrework ?_ (Host.Outcome.next.inj h)
    split
    · exact .refl s
    · split
      · exact .refl s
      · split
        · exact .backoffStep trivial
        · exact .refl s
  | claimExpiry g =>
    refine hrework ?_ (Host.Outcome.next.inj h)
    split
    · split
      · exact .expireClaim _ trivial
      · exact .refl s
    · exact .refl s
  | cellLossFallback g =>
    refine hrework ?_ (Host.Outcome.next.inj h)
    split
    · exact .refl s
    · split
      · exact .lossStep trivial
      · exact .refl s
  | cleanCountExpiry g => exact of_eq (execCleanCountExpiry s g) (Host.Outcome.next.inj h)
  | silentCellExpiry x => exact (State.Reworks.execSilentCellExpiry h).keeps
  | reservationAgeExpiry x => exact (State.Reworks.execReservationAgeExpiry h).keeps
  | warmingEnd => exact of_eq (.ite fun hw => join hw.1) (Host.Outcome.next.inj h)
  | berthMoveSwitch g =>
    refine hrework ?_ (Host.Outcome.next.inj h)
    split
    · exact .refl s
    · rename_i p hp
      split
      · exact .refl s
      · split
        · exact .berthSwitch trivial hp _
        · exact .refl s
  | cellMoveSwitch g =>
    refine hrework ?_ (Host.Outcome.next.inj h)
    split
    · exact .refl s
    · split
      · exact .refl s
      · split
        · exact .cellSwitch trivial _
        · exact .refl s
  | sinkCellMoveSwitch g =>
    refine hrework ?_ (Host.Outcome.next.inj h)
    split
    · exact .refl s
    · split
      · exact .refl s
      · split
        · exact .sinkSwitch trivial _
        · exact .refl s
  | soakExpiry k o => exact execSoakExpiry h
  | repeatExpiry k o => exact execRepeatExpiry h
  | dataWrite b =>
    exact of_eq (.ite fun hlt => setInFifo fun _ => by simpa using hlt) (Host.Outcome.next.inj h)
  | dataRead => exact of_eq (dataRead s) (Host.Outcome.next.inj h)
  | statusWrite b => exact of_eq (.refl s) (Host.Outcome.next.inj h)
  | scanAbort => exact of_eq (scanAbort s) (Host.Outcome.next.inj h)
  | clientTransmitByte p => exact of_eq (setTx s p _) (next_of_guard h)

end State.Keeps

/-- Every row keeps every invariant. -/
theorem State.KeepsInvariants.exec {s t : State} {c : Instr} (h : exec c s = .next t) : s.KeepsInvariants t := by
  have of_command {k : HostCmd} (hu : s.hostCommand k = t) : s.KeepsInvariants t := hu ▸ .hostCommand s k
  cases hc : c.ofHost with
  | false => exact (State.Keeps.exec hc h).toKeepsInvariants
  | true =>
    cases c with
    | start | addPath | deletePath | enablePath | disablePath | movePath | recentre | nudge | squelch | readPath
    | readCells | labelScan | sense | readConditions | setReport | defaults | quiet | resume | readStation =>
      exact of_command (Host.Outcome.next.inj h)
    | parameterByte b | unknownCommand b =>
      rw [← Host.Outcome.next.inj h]
      split
      · exact (State.KeepsInvariants.drain s).trans (.takeByte _ b)
      · exact .refl s
    | _ => cases hc

/-- Every step keeps every invariant: on an empty queue CMD takes a byte that waits, and else the front command runs. -/
theorem State.KeepsInvariants.step {s t : State} (h : step s = .next t) : s.KeepsInvariants t := by
  unfold Machine.step at h
  split at h
  · exact Host.Outcome.next.inj h ▸ .takeOne s
  · rename_i c rest _
    have hdrop : s.KeepsInvariants { s with pending := rest } := ⟨id, id, id, id, fun _ _ => id, fun _ => id, fun _ => id⟩
    exact hdrop.trans (.exec h)

/-! ### The identity of a record (R37) -/

/-- A record in use in both states has the same identity in both. -/
def State.SameRecords (s t : State) : Prop :=
  ∀ h p q, s.path h = some p → t.path h = some q → p.SameIdentity q

theorem State.Keeps.sameRecords {s t : State} (hk : s.Keeps t) (hT : s.TablesOk) : s.SameRecords t := by
  intro h p q hp hq
  obtain ⟨p', hp', hsame⟩ := hk.identity hT h q hq
  rw [hp, Option.some.injEq] at hp'
  exact hp' ▸ hsame

theorem State.SameRecords.of_path_eq {s t : State} (h : ∀ g, t.path g = s.path g) : s.SameRecords t := by
  intro g p q hp hq
  rw [h, hp, Option.some.injEq] at hq
  exact hq ▸ .refl p

theorem State.SameRecords.addRecord {s : State} (hT : s.TablesOk) (p : PathRec) :
    s.SameRecords (s.addRecord s.freeHandle p) := by
  intro h q r hq hr
  have hne : h ≠ s.freeHandle := by
    rintro rfl
    simp [(State.freeHandle_spec hT.1).1] at hq
  rw [State.addRecord_eq] at hr
  refine (State.Keeps.bound _ _ _).sameRecords ?_ h q r ?_ hr
  · obtain ⟨h1, hrest⟩ := hT
    exact ⟨Sparse.rising_insert _ _ _ h1, hrest⟩
  · rw [State.path_setPath_ne _ _ hne, hq]

theorem State.SameRecords.serve {s : State} (hT : s.TablesOk) (hx : s.cmd.phase ≠ .execution) (c : HostCmd) :
    s.SameRecords (s.serve c) := by
  have of_keeps {t : State} (hk : s.Keeps t) : s.SameRecords t := hk.sameRecords hT
  by_cases hc : ∃ p, c = .addPath p
  · obtain ⟨p, rfl⟩ := hc
    unfold State.serve State.serveAdd
    dsimp only
    split
    · exact of_keeps (.answerCode hx _)
    · split
      · exact of_keeps (.answer hx (by simp [refusedBy]))
      · exact State.SameRecords.addRecord hT _
  · exact of_keeps (.serve hx fun p hp => hc ⟨p, hp⟩)

theorem State.SameRecords.commandByte {s : State} (hT : s.TablesOk) (hx : s.cmd.phase = .command) (b : Byte) :
    s.SameRecords (s.commandByte b) := by
  have hne : s.cmd.phase ≠ .execution := by simp [hx]
  have of_serve (x : Option (Nat × List Byte)) (c : HostCmd) :
      s.SameRecords ((s.setCmd { s.cmd with inProgress := x }).serve c) :=
    State.SameRecords.serve (s := s.setCmd { s.cmd with inProgress := x }) hT hne c
  unfold State.commandByte
  split
  · split
    · unfold State.addParameter
      split
      · exact .of_path_eq fun _ => rfl
      · split
        · exact of_serve none _
        · exact .of_path_eq fun _ => rfl
    · exact .of_path_eq fun _ => rfl
  · unfold State.beginCommand
    split
    · exact .of_path_eq fun _ => rfl
    · split
      · exact of_serve none _
      · exact .of_path_eq fun _ => rfl
    · exact .of_path_eq fun _ => rfl

@[simp] theorem State.path_stopScan (s : State) (t : Term) (h : Nat) : (s.stopScan t).path h = s.path h := by
  unfold State.stopScan
  split <;> rfl

theorem State.SameRecords.takeByte {s : State} (hT : s.TablesOk) (b : Byte) : s.SameRecords (s.takeByte b) := by
  unfold State.takeByte
  split
  · exact State.SameRecords.commandByte hT ‹_› b
  · exact .of_path_eq fun _ => State.path_stopScan _ _ _
  · exact State.SameRecords.commandByte (s := s.setCmd s.cmd.discard) hT rfl b

theorem State.SameRecords.hostCommand {s : State} (hT : s.TablesOk) (hin : s.cmd.inFifo = []) (c : HostCmd) :
    s.SameRecords (s.hostCommand c) := by
  unfold State.hostCommand
  rw [State.drain_of_inFifo_nil hin]
  dsimp only
  split
  · rename_i hx
    exact State.SameRecords.serve (s := s.setCmd { s.cmd with inProgress := none }) hT (by simp [hx]) c
  · exact State.SameRecords.serve (s := s.setCmd s.cmd.discard) hT (by simp [Cmd.discard]) c
  · split
    · exact .of_path_eq fun _ => State.path_stopScan _ _ _
    · exact .of_path_eq fun _ => State.path_stopScan _ _ _

theorem State.SameRecords.exec {s t : State} {c : Instr} (hT : s.TablesOk) (hin : s.cmd.inFifo = [])
    (h : exec c s = .next t) : s.SameRecords t := by
  have of_command {k : HostCmd} (hu : s.hostCommand k = t) : s.SameRecords t := hu ▸ .hostCommand hT hin k
  cases hc : c.ofHost with
  | false => exact (State.Keeps.exec hc h).sameRecords hT
  | true =>
    cases c with
    | start | addPath | deletePath | enablePath | disablePath | movePath | recentre | nudge | squelch | readPath
    | readCells | labelScan | sense | readConditions | setReport | defaults | quiet | resume | readStation =>
      exact of_command (Host.Outcome.next.inj h)
    | parameterByte b | unknownCommand b =>
      rw [← Host.Outcome.next.inj h, State.drain_of_inFifo_nil hin]
      split
      · exact .takeByte hT b
      · exact .of_path_eq fun _ => rfl
    | _ => cases hc

/-! ### The obligations -/

/-- Settles O54. -/
theorem stepKeepsBounds : Obligations.StepKeepsBounds := fun _ _ hb h => (State.KeepsInvariants.step h).bounded hb

/-- Settles O55. -/
theorem stepKeepsPortAgreement : Obligations.StepKeepsPortAgreement := fun _ _ hp h =>
  (State.KeepsInvariants.step h).port hp

/-- Settles O56. -/
theorem stepKeepsStationSilence : Obligations.StepKeepsStationSilence := fun _ _ hT hs hm h =>
  ⟨(State.KeepsInvariants.step h).station hs, (State.KeepsInvariants.step h).mute hT hs hm⟩

/-- Settles O57. -/
theorem stepKeepsTables : Obligations.StepKeepsTables := fun _ _ hT h => (State.KeepsInvariants.step h).tables hT

/-- Settles O58. -/
theorem stepKeepsCompletions : Obligations.StepKeepsCompletions := fun _ _ hT hc h =>
  (State.KeepsInvariants.step h).completions hT hc

/-- Settles O59. -/
theorem stepKeepsRecords : Obligations.StepKeepsRecords := fun _ _ hT hp h => (State.KeepsInvariants.step h).paths hT hp

/-- Settles O60: a command changes the records that it finds by changes that keep their identity, and ADD PATH takes a
handle that is not in use. -/
theorem recordIdentityIsFixed : Obligations.RecordIdentityIsFixed := fun _ _ _ _ _ _ hT hin h hp hq =>
  State.SameRecords.exec hT hin h _ _ _ hp hq

/-- Settles O3. -/
theorem resetMeetsInvariants : Obligations.ResetMeetsInvariants :=
  ⟨State.reset_bounded, State.reset_port, State.reset_station, State.reset_mute, State.reset_tablesOk,
    State.reset_completions, State.reset_paths⟩

end Sys2Proof.Machine

/-! ## Proofs: the step, device reset, the faults and the reference in HOLDOVER -/

namespace Sys2Proof.Machine

/-- Settles O1. -/
theorem stepRunsFrontCommand : Obligations.StepRunsFrontCommand := by
  refine fun s => ⟨fun c rest hp => ?_, fun hp hin => ?_, fun b r hp hin => ?_⟩
  · simp only [step, hp]
  · simp only [step, hp, idle, State.takeOne, hin]
  · simp only [step, hp, idle, State.takeOne, hin]

/-- Settles O2: the reset state is written out in the model, so each value is read off it. -/
theorem deviceResetValues : Obligations.DeviceResetValues := by
  refine ⟨fun _ => rfl, by decide, fun p => ?_, fun c => ⟨rfl, rfl, rfl, rfl⟩, rfl, State.reset_path, rfl, fun _ _ => rfl,
    rfl, rfl, fun _ => rfl, rfl, rfl, rfl, rfl, rfl, rfl, rfl, rfl, rfl, rfl, rfl⟩
  exact ⟨by simp [State.portSize, portSize, State.reset], rfl, rfl, rfl, rfl, rfl⟩

/-! ### Commands that answer (95) -/

/-- A row that faults under a condition that does not hold answers. -/
theorem exists_next_of_guard {c : Prop} [Decidable c] {f : Fault} {u : State} (hc : ¬ c) :
    ∃ t, (if c then Host.Outcome.fault f else .next u : Host.Outcome State Fault Refusal) = .next t := ⟨u, if_neg hc⟩

theorem exists_next_of_client {c d : Prop} [Decidable c] [Decidable d] {f : Fault} {s u : State} (hc : ¬ c) :
    ∃ t, (if c then Host.Outcome.fault f else if d then .next u else .next s : Host.Outcome State Fault Refusal) =
      .next t := by
  rw [if_neg hc]
  split
  · exact ⟨u, rfl⟩
  · exact ⟨s, rfl⟩

/-- A row that acts under a condition, and else leaves the state, answers. -/
theorem exists_next_of_ite {c : Prop} [Decidable c] {s u : State} :
    ∃ t, (if c then .next u else .next s : Host.Outcome State Fault Refusal) = .next t := by
  split
  · exact ⟨u, rfl⟩
  · exact ⟨s, rfl⟩

theorem exec_decisionPoint_answers (h : Nat) (s : State) : ∃ t, exec (.decisionPoint h) s = .next t := by
  change ∃ t, execDecisionPoint h s = .next t
  unfold execDecisionPoint
  split
  · exact ⟨s, rfl⟩
  · split
    · exact ⟨s, rfl⟩
    · exact ⟨_, rfl⟩

theorem exec_carrierByteReceived_answers {c : Nat} (hc : c < 4) (b : Byte) (transition : Bool) (s : State) :
    ∃ t, exec (.carrierByteReceived c b transition) s = .next t := by
  change ∃ t, execCarrierByteReceived c b transition s = .next t
  rw [execCarrierByteReceived, if_neg (by omega)]
  dsimp only
  split
  · exact ⟨_, rfl⟩
  · exact ⟨_, rfl⟩

theorem exec_carrierFrameReceived_answers {c : Nat} (hc : c < 4) (f : RxFrame) (s : State) :
    ∃ t, exec (.carrierFrameReceived c f) s = .next t := by
  change ∃ t, execCarrierFrameReceived c f s = .next t
  rw [execCarrierFrameReceived, if_neg (by omega)]
  dsimp only
  split
  · split
    · exact ⟨_, rfl⟩
    · exact exists_next_of_ite
  · exact ⟨_, rfl⟩

theorem exec_groupStart_answers {c b : Nat} (hc : c < 4) (hb : b < 432) (s : State) :
    ∃ t, exec (.groupStart c b) s = .next t := by
  change ∃ t, execGroupStart c b s = .next t
  rw [execGroupStart, if_neg (by omega), if_neg (by simp only [Config.berths]; omega)]
  split
  · exact ⟨_, rfl⟩
  · exact ⟨_, rfl⟩

theorem exec_answers {c : Instr} (s : State) (hc : c.wf = true) : ∃ t, exec c s = .next t := by
  cases c with
  | clientByteReceived p b transition n =>
    simp only [Instr.wf, decide_eq_true_eq] at hc
    exact exists_next_of_client (by omega)
  | clientLosOnset p | clientLosClear p | clientAlignmentLoss p =>
    simp only [Instr.wf, decide_eq_true_eq] at hc
    exact exists_next_of_client (by omega)
  | clientAligned p maint n =>
    simp only [Instr.wf, decide_eq_true_eq] at hc
    exact exists_next_of_client (by omega)
  | clientTransmitByte p =>
    simp only [Instr.wf, decide_eq_true_eq] at hc
    exact exists_next_of_guard (by omega)
  | carrierLosOnset c | carrierLosClear c | carrierAligned c | carrierAlignmentLoss c =>
    simp only [Instr.wf, decide_eq_true_eq] at hc
    exact exists_next_of_guard (by omega)
  | carrierByteReceived c b transition =>
    simp only [Instr.wf, decide_eq_true_eq] at hc
    exact exec_carrierByteReceived_answers hc b transition s
  | carrierFrameReceived c f =>
    simp only [Instr.wf, Bool.and_eq_true, decide_eq_true_eq] at hc
    exact exec_carrierFrameReceived_answers hc.1 f s
  | groupStart c b =>
    simp only [Instr.wf, Bool.and_eq_true, decide_eq_true_eq] at hc
    exact exec_groupStart_answers hc.1 hc.2 s
  | highwayCell x others noise payload =>
    simp only [Instr.wf, Bool.and_eq_true, decide_eq_true_eq] at hc
    exact exists_next_of_guard (by omega)
  | silentCellExpiry x | reservationAgeExpiry x =>
    simp only [Instr.wf, decide_eq_true_eq] at hc
    exact exists_next_of_guard (by omega)
  | decisionPoint h => exact exec_decisionPoint_answers h s
  | inWindowPulse n marker => exact exists_next_of_ite
  | outOfWindowPulse n marker =>
    change ∃ t, execOutOfWindowPulse n marker s = .next t
    unfold execOutOfWindowPulse
    split
    · exact ⟨s, rfl⟩
    · exact ⟨_, rfl⟩
  | _ => exact ⟨_, rfl⟩

/-- Settles O4. -/
theorem wellFormedCommandsAnswer : Obligations.WellFormedCommandsAnswer := by
  refine ⟨fun c s => exec_answers s, fun s p hp => if_pos hp, fun s c hc => if_pos hc, fun s c b hc hb => ?_,
    fun s x hx => if_pos hx⟩
  exact (if_neg (by omega)).trans (if_pos hb)

/-! ### HOLDOVER (R5) -/

theorem State.inWindow_holdover_none {s : State} (hs : s.ftm.timer = .holdover) (ha : s.ftm.anchor = none) (t : Nat) :
    s.ftm.inWindow t = false := by simp only [Ftm.inWindow, Ftm.expected, hs, ha]

theorem State.inWindow_holdover_some {s : State} {a : Nat} (hs : s.ftm.timer = .holdover) (ha : s.ftm.anchor = some a)
    (t : Nat) : s.ftm.inWindow t = near t a := by simp only [Ftm.inWindow, Ftm.expected, hs, ha]

theorem near_iff (t a : Nat) : near t a = true ↔ t ≤ a + 7812500 ∧ a ≤ t + 7812500 := by
  rw [near, Bool.and_eq_true, decide_eq_true_iff, decide_eq_true_iff]
  rfl

theorem exec_outOfWindowPulse_holdover {s : State} (hs : s.ftm.timer = .holdover) {t : Nat} (ht : s.ftm.inWindow t = false)
    (m : Bool) : exec (.outOfWindowPulse t m) s =
      .next (s.setFtm { s.ftm with good := 0, anchor := some (t + s.ftm.period), lastPulse := none }) := by
  change execOutOfWindowPulse t m s = _
  simp only [execOutOfWindowPulse, ht, hs]
  rfl

/-- Settles O5. -/
theorem holdoverHuntsReference : Obligations.HoldoverHuntsReference := by
  refine fun s t m hs => ⟨fun ha => ?_, fun a ha => ⟨fun hfar => ?_, fun hnear hgood => ?_, ?_⟩⟩
  · exact exec_outOfWindowPulse_holdover hs (State.inWindow_holdover_none hs ha t) m
  · refine exec_outOfWindowPulse_holdover hs ?_ m
    rw [State.inWindow_holdover_some hs ha, ← Bool.not_eq_true, near_iff]
    exact hfar
  · have hin : s.ftm.inWindow t = true := by
      rw [State.inWindow_holdover_some hs ha]
      exact (near_iff t a).mpr hnear
    change execInWindowPulse t m s = _
    simp only [execInWindowPulse, hin, hs, State.holdoverPulse, if_neg (Nat.not_le.mpr hgood), if_true]
  · change execMissingPulse s = _
    simp only [execMissingPulse, hs, ha]

end Sys2Proof.Machine

/-! ## Proofs: client ports -/

namespace Sys2Proof

/-- A value that an unlisted number does not read as is read back after it is written, in any table. -/
theorem Sparse.get_put_self_of_ne {α : Type} [DecidableEq α] {d v : α} (m : Sparse α) (k : Nat) (h : v ≠ d) :
    Sparse.get d (Sparse.put d m k v) k = v := by
  unfold Sparse.get Sparse.put
  rw [if_neg h, Sparse.find_insert_self]
  rfl

end Sys2Proof

namespace Sys2Proof.Machine

/-! ### The four events of a receive side (R19 to R21, R23) -/

/-- Settles O10. -/
theorem clientReceiveEvents : Obligations.ClientReceiveEvents := by
  refine fun s p m t hp => ⟨fun hu hlos => ?_, fun hu hlos => ?_, fun hu ha hc => ?_, fun hu ha hm => ?_, fun hu => ?_⟩
  · exact (if_neg (by omega)).trans (if_pos (by simp [hu, hlos]))
  · exact (if_neg (by omega)).trans (if_pos (by simp [hu, hlos]))
  · have hword : ((s.rx p).word (some m)).1 = { s.rx p with
        align := .aligned, confirm := 4, miss := 0, pos := some 2, held := none, maint := m,
        captureDue := (s.rx p).captureDue && m } := by
      simp [RxSide.word, RxSide.found, ha, hc]
    rw [← hword]
    exact (if_neg (by omega)).trans (if_pos (by simp [hu, ha, hc]))
  · exact (if_neg (by omega)).trans (if_pos (by simp [hu, ha, hm]))
  · refine ⟨(if_neg (by omega)).trans (if_neg ?_), (if_neg (by omega)).trans (if_neg ?_),
      (if_neg (by omega)).trans (if_neg ?_), (if_neg (by omega)).trans (if_neg ?_)⟩ <;> simp [hu]

/-! ### Bytes of a receive side (R19, R20, R22) -/

/-- A byte at a data position: the position moves on, and the byte is delivered from an aligned normal-form frame. -/
theorem RxSide.byte_of_data {r : RxSide} {n : Nat} (hp : r.pos = some n) (hn : 2 ≤ n) (k : Nat) (b : Byte) :
    r.byte k b = ({ r with pos := some (if n + 1 < 2 + 90 * k then n + 1 else 0) }, false,
      r.align == .aligned && !r.maint) := by
  obtain ⟨m, rfl⟩ := Nat.exists_eq_add_of_le' hn
  simp only [RxSide.byte, hp]

/-- An aligned side is listed, so it is read back after it is stored, in any table. -/
theorem State.rx_putRx_of_aligned {s : State} {r : RxSide} (p : Nat) (h : r.align = .aligned) :
    (s.putRx p r).rx p = { r with losSeen := r.losSeen || r.los, loaSeen := r.loaSeen || !(r.align == .aligned),
                                  maintSeen := r.maintSeen || r.maint } :=
  Sparse.get_put_self_of_ne _ _ fun he => by
    have := congrArg RxSide.align he
    simp [h, RxSide.init] at this

theorem State.rx_putRx_ne (s : State) {p x : Nat} (r : RxSide) (hx : x ≠ p) : (s.putRx p r).rx x = s.rx x :=
  Sparse.get_put_ne _ _ _ hx

@[simp] theorem State.path_putRx (s : State) (p h : Nat) (r : RxSide) : (s.putRx p r).path h = s.path h := rfl
@[simp] theorem State.rxPath_putRx (s : State) (p q : Nat) (r : RxSide) : (s.putRx p r).rxPath q = s.rxPath q := rfl
@[simp] theorem State.portAgrees_putRx (s : State) (p q k : Nat) (r : RxSide) :
    (s.putRx p r).portAgrees q k = s.portAgrees q k := rfl

theorem State.deliverByte_of_path {s : State} {p h : Nat} {q : PathRec} {f : Fil} (b : Byte) (hb : s.rxPath p = some h)
    (hq : s.path h = some q) (hf : q.fil = some f) (ha : s.portAgrees p q.k = true) :
    s.deliverByte p b = s.setPath h { q with fil := some (f.deliver q.k b) } := by
  simp [State.deliverByte, hb, State.modFil, State.modPath_of_path _ hq, hf, ha]

theorem State.markPath_of_delivering {s : State} {h : Nat} {p : PathRec} (hp : s.path h = some p)
    (hd : s.notDelivering p = false) : s.markPath h = s := by simp [State.markPath, hp, hd]

/-- A byte time with a transition, at a data position of an aligned normal-form frame. -/
theorem State.clientByte_of_data {s : State} {p n : Nat} (b : Byte) (t : Nat) (hal : (s.rx p).align = .aligned)
    (hlos : (s.rx p).los = false) (hm : (s.rx p).maint = false) (hpos : (s.rx p).pos = some n) (hn : 2 ≤ n) :
    s.clientByte p b true t = ((s.putRx p { s.rx p with
      pos := some (if n + 1 < 2 + 90 * s.txSize p then n + 1 else 0), quiet := 0 }).deliverByte p b).markPort p := by
  simp [State.clientByte, hlos, RxSide.byte_of_data hpos hn, hal, hm]

/-- Settles O11. -/
theorem alignedPortDeliversDataByte : Obligations.AlignedPortDeliversDataByte := by
  intro s p h b t n q f hp hu hal hlos hm hpos hn hb hq hf hsrc hag hdrop hroom
  let r : RxSide := { s.rx p with pos := some (if n + 1 < 2 + 90 * s.txSize p then n + 1 else 0), quiet := 0 }
  let q' : PathRec := { q with fil := some { f with store := f.store ++ [b] } }
  let u := (s.putRx p r).setPath h q'
  have hrx : u.rx p = { r with losSeen := r.losSeen || r.los, loaSeen := r.loaSeen || !(r.align == .aligned),
                               maintSeen := r.maintSeen || r.maint } := State.rx_putRx_of_aligned p hal
  have hput : (s.putRx p r).deliverByte p b = u := by
    rw [State.deliverByte_of_path b (s := s.putRx p r) hb hq hf hag]
    simp [u, q', Fil.deliver, hdrop, Fil.write, hroom]
  have hdel : u.notDelivering q' = false := by
    have ha : u.portAgrees p q.k = true := hag
    simp [State.notDelivering, q', hsrc, ha, hrx, r, hal, hlos, hm]
  have hmark : u.markPort p = u := by
    have hb' : u.rxPath p = some h := hb
    simp only [State.markPort, hb']
    exact State.markPath_of_delivering (State.path_setPath_self _ _ _) hdel
  have hrun : exec (.clientByteReceived p b true t) s = .next u := by
    change (if 32 ≤ p then _ else if s.used p then _ else _) = _
    rw [if_neg (by omega), if_pos hu, State.clientByte_of_data b t hal hlos hm hpos hn]
    exact congrArg _ ((congrArg (State.markPort · p) hput).trans hmark)
  refine ⟨u, hrun, State.path_setPath_self _ _ _, fun g hg => State.path_setPath_ne _ _ hg, ?_, ?_,
    fun x hx => State.rx_putRx_ne s r hx, rfl, rfl, rfl, rfl, rfl, rfl, rfl, rfl, rfl⟩
  · rw [hrx]
  · rw [hrx]; exact hal

/-! ### A client frame from a transmit side to a receive side (R14, R20, R22, R26) -/

/-- Within a frame a side in DATA sends the bytes handed, in order. -/
theorem TxSide.run_data {k : Nat} (rest : List Byte) : ∀ (l : List Byte) (t : TxSide), t.data = true → t.word = 2 →
    t.handed = l ++ rest → l ≠ [] → t.count + l.length = 90 * k →
    (t.run k l.length).1 = l ∧ (t.run k l.length).2.handed = rest ∧ (t.run k l.length).2.count = 0 ∧
      (t.run k l.length).2.word = 0
  | [], _, _, _, _, h, _ => absurd rfl h
  | b :: l, t, hd, hw, hh, _, hc => by
    have hh' : t.handed = b :: (l ++ rest) := hh
    simp only [List.length_cons] at hc
    by_cases hl : l = []
    · subst hl
      have hend : t.count + 1 = 90 * k := hc
      have hs : t.sendByte k = { t with handed := rest, count := 0, word := 0, out := some b } := by
        simp [TxSide.sendByte, hd, hh', hw, hend]
      simp [TxSide.run, hs]
    · have hpos : 0 < l.length := List.length_pos_iff.mpr hl
      have hs : t.sendByte k = { t with handed := l ++ rest, count := t.count + 1, out := some b } := by
        simp [TxSide.sendByte, hd, hh', hw, show t.count + 1 ≠ 90 * k by omega]
      obtain ⟨h1, h2⟩ := TxSide.run_data (k := k) rest l (t.sendByte k) (by simp [hs, hd]) (by simp [hs, hw]) (by simp [hs]) hl
        (by simp only [hs]; omega)
      simp only [List.length_cons, TxSide.run, h1, h2]
      simp [hs]

/-- Within a normal-form frame an aligned side delivers each byte. -/
theorem RxSide.run_data {k : Nat} : ∀ (l : List Byte) (r : RxSide) (n : Nat), r.align = .aligned → r.maint = false →
    r.pos = some n → 2 ≤ n → l ≠ [] → n + l.length = 2 + 90 * k →
    (r.run k l).1 = l ∧ (r.run k l).2.pos = some 0 ∧ (r.run k l).2.align = .aligned ∧ (r.run k l).2.miss = r.miss
  | [], _, _, _, _, _, _, h, _ => absurd rfl h
  | b :: l, r, n, ha, hm, hp, hn, _, hc => by
    simp only [List.length_cons] at hc
    have hb := RxSide.byte_of_data hp hn k b
    by_cases hl : l = []
    · subst hl
      have hend : ¬ n + 1 < 2 + 90 * k := by simp at hc; omega
      simp [RxSide.run, hb, hend, ha, hm]
    · have hpos : 0 < l.length := List.length_pos_iff.mpr hl
      have hlt : n + 1 < 2 + 90 * k := by omega
      obtain ⟨h1, h2, h3, h4⟩ := RxSide.run_data (k := k) l { r with pos := some (n + 1) } (n + 1) ha hm rfl (by omega) hl (by omega)
      simp only [RxSide.run, hb, if_pos hlt, h1, h2, h3, h4]
      simp [ha, hm]

/-- Settles O12. -/
theorem clientFrameRoundTrip : Obligations.ClientFrameRoundTrip := by
  intro k l rest t r hk hl hd hc hw hh hal hpos
  obtain ⟨b, l', rfl⟩ : ∃ b l', l = b :: l' := List.exists_cons_of_length_pos (by omega)
  have hsend : ((t.sendByte k).sendByte k) = { t with word := 2, out := some wordNormal } ∧
      (t.sendByte k).out = some wordFirst := by simp [TxSide.sendByte, hd, hh, hc, hw]
  obtain ⟨htx, hrest⟩ := TxSide.run_data (k := k) rest (b :: l') ((t.sendByte k).sendByte k) (by simp [hsend.1, hd])
    (by simp [hsend.1]) (by simp [hsend.1, hh]) (by simp) (by simp only [hsend.1, hc]; omega)
  have hrun : t.run k (2 + 90 * k) = (wordFirst :: wordNormal :: b :: l',
      (((t.sendByte k).sendByte k).run k (b :: l').length).2) := by
    rw [Nat.add_comm, ← hl]
    simp only [TxSide.run, htx, hsend.2]
    simp [hsend.1]
  let r2 : RxSide := { r with pos := some 2, held := none, maint := false, captureDue := false, miss := 0 }
  have hword : (((r.byte k wordFirst).1).byte k wordNormal).1 = r2 ∧ (r.byte k wordFirst).2.2 = false ∧
      (((r.byte k wordFirst).1).byte k wordNormal).2.2 = false := by
    simp [RxSide.byte, hpos, wordForm, RxSide.word, hal, RxSide.found, r2]
  obtain ⟨hrx, hend⟩ := RxSide.run_data (k := k) (b :: l') r2 2 hal rfl rfl (by omega) (by simp) (by omega)
  rw [hrun]
  refine ⟨rfl, hrest.1, hrest.2.1, hrest.2.2, ?_⟩
  simp only [RxSide.run, hword] at hrx hend ⊢
  exact ⟨hrx, hend⟩

/-! ### A fill frame (R25, R26) -/

/-- Behind its word a fill frame is 0xFF to its end. -/
theorem TxSide.run_fill {k : Nat} : ∀ (n : Nat) (t : TxSide), t.data = false → 2 ≤ t.fillPos →
    t.fillPos + n = 2 + 90 * k →
    (t.run k n).1 = List.replicate n 0xFF ∧ (t.run k n).2.data = false ∧ (t.run k n).2.fillPos = 2 + 90 * k
  | 0, t, hd, _, hn => by simp [TxSide.run, hd]; omega
  | n + 1, t, hd, hp, hn => by
    have hs : t.sendByte k = { t with fillPos := t.fillPos + 1, out := some 0xFF } := by
      simp [TxSide.sendByte, hd, show t.fillPos < 2 + 90 * k by omega, show t.fillPos ≠ 0 by omega,
        show t.fillPos ≠ 1 by omega]
    obtain ⟨h1, h2⟩ := TxSide.run_fill (k := k) n (t.sendByte k) (by simp [hs, hd]) (by simp only [hs]; omega)
      (by simp only [hs]; omega)
    simp only [TxSide.run, h1, h2]
    simp [hs, List.replicate_succ]

/-- Settles O13. -/
theorem clientTransmitSends : Obligations.ClientTransmitSends := by
  refine ⟨fun k t hd hp => ?_, fun s p hp => if_neg (by omega)⟩
  have hsend : ((t.sendByte k).sendByte k) = { t with fillPos := 2, out := some wordMaint } ∧
      (t.sendByte k).out = some wordFirst := by
    simp [TxSide.sendByte, hd, hp, show 1 < 2 + 90 * k by omega]
  obtain ⟨htx, hdata, hend⟩ := TxSide.run_fill (k := k) (90 * k) ((t.sendByte k).sendByte k) (by simp [hsend.1, hd])
    (by simp [hsend.1]) (by simp [hsend.1])
  have hrun : t.run k (2 + 90 * k) = (wordFirst :: wordMaint :: List.replicate (90 * k) 0xFF,
      (((t.sendByte k).sendByte k).run k (90 * k)).2) := by
    rw [Nat.add_comm]
    simp only [TxSide.run, htx, hsend.2]
    simp [hsend.1]
  rw [hrun]
  exact ⟨rfl, (if_neg (by simp [hdata])).trans (if_neg (by simp [hend]))⟩

end Sys2Proof.Machine

/-! ## Proofs: carrier receivers and the label scan -/

namespace Sys2Proof

/-- After a list of writes with different numbers, each number written reads as what was written for it. -/
theorem Sparse.find_foldl_insert {α β : Type} (g : α → β) : ∀ (l : Sparse α) (m : Sparse β),
    (Sparse.keys l).Nodup →
    (∀ e ∈ l, Sparse.find (l.foldl (fun m e => Sparse.insert m e.1 (g e.2)) m) e.1 = some (g e.2)) ∧
    ∀ k, k ∉ Sparse.keys l → Sparse.find (l.foldl (fun m e => Sparse.insert m e.1 (g e.2)) m) k = Sparse.find m k
  | [], m, _ => ⟨by simp, fun _ _ => rfl⟩
  | a :: l, m, h => by
    obtain ⟨ha, hl⟩ := List.nodup_cons.mp h
    obtain ⟨hin, hout⟩ := Sparse.find_foldl_insert g l (Sparse.insert m a.1 (g a.2)) hl
    refine ⟨fun e he => ?_, fun k hk => ?_⟩
    · rcases List.mem_cons.mp he with rfl | he
      · exact (hout e.1 ha).trans (Sparse.find_insert_self _ _ _)
      · exact hin e he
    · have hne : k ≠ a.1 := fun hka => hk (hka ▸ List.mem_cons_self)
      exact (hout k fun hkl => hk (List.mem_cons_of_mem _ hkl)).trans (Sparse.find_insert_ne _ _ hne)

end Sys2Proof

namespace Sys2Proof.Machine

/-! ### Carriers read back -/

theorem State.carrier_putCarrier_self {s : State} (hT : s.TablesOk) (c : Nat) (r : Carrier) :
    (s.putCarrier c r).carrier c = { r with losSeen := r.losSeen || r.los, loaSeen := r.loaSeen || !(r.align == .aligned),
                                            delivered := r.delivered &&& r.delivering } := by
  obtain ⟨_, _, _, _, _, _, hc, _⟩ := hT
  exact Sparse.get_put_self _ _ _ _ (Sparse.rising_of_wf hc)

theorem State.carrier_putCarrier_ne (s : State) {c d : Nat} (r : Carrier) (hd : d ≠ c) :
    (s.putCarrier c r).carrier d = s.carrier d := Sparse.get_put_ne _ _ _ hd

theorem State.feed_setFeed_self {s : State} (hT : s.TablesOk) (c : Nat) (l : List FeedEntry) :
    (s.setFeed c l).feed c = l := by
  obtain ⟨_, _, _, hf, _⟩ := hT
  exact Sparse.get_put_self _ _ _ _ (Sparse.rising_of_wf hf)

/-! ### The scan's part in a received frame and in a loss of alignment -/

/-- The scan that it ends or continues and the port are all that a frame of the scan changes. -/
theorem State.exists_scanFrame (s : State) (c : Nat) (prev : Option Nat) (f : RxFrame) :
    ∃ x y, s.scanFrame c prev f = (s.setCrx { s.crx with scan := x }).setCmd y := by
  unfold State.scanFrame
  split
  · exact ⟨s.crx.scan, s.cmd, rfl⟩
  · split
    · split
      · exact ⟨some _, s.cmd, rfl⟩
      · exact ⟨none, _, rfl⟩
    · exact ⟨s.crx.scan, s.cmd, rfl⟩

theorem State.exists_scanLost (s : State) (c : Nat) :
    ∃ x y, s.scanLost c = (s.setCrx { s.crx with scan := x }).setCmd y := by
  unfold State.scanLost State.stopScan
  split
  · exact ⟨s.crx.scan, s.cmd, rfl⟩
  · split
    · split
      · exact ⟨s.crx.scan, s.cmd, rfl⟩
      · exact ⟨_, _, rfl⟩
    · exact ⟨s.crx.scan, s.cmd, rfl⟩

theorem State.scanLost_of_scan {s : State} {sc : Scan} (h : s.crx.scan = some sc) :
    s.scanLost sc.par.carrier = s.endScan (sc.result .notReady) := by
  simp [State.scanLost, State.stopScan, h]

/-! ### Operations on records alone -/

/-- Nothing but the records of the handles in `H` differs. -/
def State.Repaths (H : Nat → Prop) (s t : State) : Prop :=
  (∃ x, t = s.setPtb { s.ptb with paths := x }) ∧ ∀ g, ¬ H g → t.path g = s.path g

namespace State.Repaths

variable {H : Nat → Prop} {s t u : State}

theorem refl (s : State) : s.Repaths H s := ⟨⟨s.ptb.paths, rfl⟩, fun _ _ => rfl⟩

theorem trans (h : s.Repaths H t) (h' : t.Repaths H u) :
    s.Repaths H u := by
  obtain ⟨⟨x, rfl⟩, hx⟩ := h
  obtain ⟨⟨y, rfl⟩, hy⟩ := h'
  exact ⟨⟨y, rfl⟩, fun g hg => (hy g hg).trans (hx g hg)⟩

theorem foldl {α : Type} {f : State → α → State} {l : List α} (hf : ∀ u : State, ∀ a ∈ l, u.Repaths H (f u a))
    (s : State) : s.Repaths H (l.foldl f s) := by
  induction l generalizing s with
  | nil => exact refl s
  | cons a l ih =>
    exact (hf s a List.mem_cons_self).trans (ih (fun u b hb => hf u b (List.mem_cons_of_mem _ hb)) (f s a))

theorem setPath {h : Nat} (hh : H h) (p : PathRec) : s.Repaths H (s.setPath h p) :=
  ⟨⟨_, rfl⟩, fun _ hg => State.path_setPath_ne s p fun e => hg (e ▸ hh)⟩

theorem modPath {h : Nat} (hh : H h) (f : PathRec → PathRec) : s.Repaths H (s.modPath h f) := by
  rcases s.modPath_cases h f with ⟨_, he⟩ | ⟨p, _, he⟩ <;> rw [he]
  · exact refl s
  · exact setPath hh _

theorem markPath {h : Nat} (hh : H h) : s.Repaths H (s.markPath h) := by
  rcases s.markPath_cases h with he | ⟨p, _, _, he⟩ <;> rw [he]
  · exact refl s
  · exact setPath hh _

theorem markFed (s : State) (c : Nat) : s.Repaths (fun _ => True) (s.markFed c) :=
  foldl (fun _ _ _ => foldl (fun _ _ _ => markPath trivial) _) s

/-- The blocks and the other tables are as they were. -/
theorem blocks (h : s.Repaths H t) : t.ftm = s.ftm ∧ t.clp = s.clp ∧ t.crx = s.crx ∧ t.fil = s.fil ∧ t.cbl = s.cbl ∧
    t.hwy = s.hwy ∧ t.cnd = s.cnd ∧ t.cmd = s.cmd ∧ t.pending = s.pending := by
  obtain ⟨⟨x, rfl⟩, _⟩ := h
  exact ⟨rfl, rfl, rfl, rfl, rfl, rfl, rfl, rfl, rfl⟩

end State.Repaths

/-! ### The events of a carrier receiver (R27 to R29, R31) -/

/-- When a carrier leaves ALIGNED, its receiver stands as stored, the scan of it ends, and only its feeds and the marks
of records differ besides. -/
theorem State.exists_carrierDown (s : State) (c : Nat) (r : Carrier) :
    let v := s.putCarrier c { r with decoded := 0, prevIndex := none }
    ∃ x y z, (s.carrierDown c r) = ((v.setCrx { v.crx with scan := x }).setCmd y).setPtb z ∧
      (∀ sc, s.crx.scan = some sc → sc.par.carrier = c → x = none ∧ y = s.cmd.stage (sc.result .notReady) true) := by
  intro v
  let w := v.setFeed c ((v.feed c).map (fun e => { e with cap := e.cap.lost }))
  obtain ⟨⟨z, hz⟩, _⟩ := State.Repaths.markFed (w.scanLost c) c
  have hrun : s.carrierDown c r = (w.scanLost c).markFed c := rfl
  rw [hrun, hz]
  cases hsc : s.crx.scan with
  | none =>
    obtain ⟨x, y, hxy⟩ := w.exists_scanLost c
    exact ⟨x, y, _, by rw [hxy]; rfl, by simp⟩
  | some sc =>
    by_cases hc : sc.par.carrier = c
    · subst hc
      refine ⟨none, _, _, by rw [State.scanLost_of_scan (s := w) hsc]; rfl, fun sc' h' _ => ?_⟩
      cases h'
      exact ⟨rfl, rfl⟩
    · obtain ⟨x, y, hxy⟩ := w.exists_scanLost c
      exact ⟨x, y, _, by rw [hxy]; rfl, fun sc' h' hc' => absurd hc' (by cases h'; exact hc)⟩

theorem exec_carrier_of_lt {c : Nat} (hc : c < 4) {u : State} :
    (if 4 ≤ c then Host.Outcome.fault (.noSuchCarrier c) else .next u : Host.Outcome State Fault Refusal) = .next u :=
  if_neg (by omega)

/-- Settles O14. -/
theorem carrierReceiveEvents : Obligations.CarrierReceiveEvents := by
  intro s c hc
  refine ⟨fun hlos ha => ?_, fun hlos => ?_, fun ha hconf => ?_, fun hT ha hm => ?_, fun ha hlos hp hh => ?_⟩
  · refine (exec_carrier_of_lt hc).trans ?_
    simp [hlos, State.carrierSignalLost, ha, Carrier.hunting]
  · exact (exec_carrier_of_lt hc).trans (by simp [hlos])
  · exact (exec_carrier_of_lt hc).trans (by simp [ha, hconf, Carrier.confirmed])
  · have hrun : exec (.carrierAlignmentLoss c) s = .next (s.carrierDown c (s.carrier c).hunting) :=
      (exec_carrier_of_lt hc).trans (by simp [ha, hm])
    have hself := State.carrier_putCarrier_self hT c { (s.carrier c).hunting with decoded := 0, prevIndex := none }
    have hne (d : Nat) (hd : d ≠ c) :=
      State.carrier_putCarrier_ne s { (s.carrier c).hunting with decoded := 0, prevIndex := none } hd
    have hcodes : ((s.putCarrier c { (s.carrier c).hunting with decoded := 0, prevIndex := none }).carrier c).codes =
        (s.carrier c).codes := by rw [hself]; rfl
    obtain ⟨x, y, z, hdown, hscan⟩ := s.exists_carrierDown c (s.carrier c).hunting
    rw [hdown] at hrun
    refine ⟨_, hrun, congrArg Carrier.align hself, congrArg Carrier.confirm hself, congrArg Carrier.miss hself,
      fun b => congrArg (fun m : Sparse Code => Sparse.find m b) hcodes, congrArg Carrier.decoded hself, hne,
      rfl, rfl, rfl, rfl, rfl, rfl, fun sc hsc hsc' => ?_⟩
    obtain ⟨rfl, rfl⟩ := hscan sc hsc hsc'
    exact ⟨rfl, rfl, rfl⟩
  · refine (if_neg (by omega)).trans ?_
    simp [hlos, Carrier.byte, ha, hp, hh, carrierPattern]

/-! ### A received frame (R29, R30, R65) -/

/-- The writes of the input stage stop at the capacity of the store. -/
theorem Fil.writeAll_store {k : Nat} : ∀ (l : List Byte) (f : Fil), f.store.length ≤ capacity k →
    (f.writeAll k l).store = (f.store ++ l).take (capacity k)
  | [], f, h => by simp [Fil.writeAll, List.take_of_length_le h]
  | b :: l, f, h => by
    have hcons : f.writeAll k (b :: l) = (f.write k b).writeAll k l := rfl
    by_cases hroom : f.store.length < capacity k
    · have hw : f.write k b = { f with store := f.store ++ [b] } := if_pos hroom
      rw [hcons, hw, Fil.writeAll_store l _ (by simp; omega)]
      simp
    · have hw : f.write k b = { f with slipPending := true } := if_neg hroom
      have hfull : f.store.length = capacity k := by omega
      rw [hcons, hw, Fil.writeAll_store l { f with slipPending := true } h]
      simp [List.take_append_of_le_length, hfull.ge]

theorem State.markPath_fil {s : State} {h : Nat} {p : PathRec} {f : Fil} (hp : s.path h = some p) (hf : p.fil = some f) :
    ∃ q g, (s.markPath h).path h = some q ∧ q.fil = some g ∧ g.store = f.store ∧ g.inStage = f.inStage := by
  unfold State.markPath
  simp only [hp]
  split
  · exact ⟨_, _, State.path_setPath_self _ _ _, congrArg (Option.map _) hf, rfl, rfl⟩
  · exact ⟨p, f, hp, hf, rfl, rfl⟩

theorem State.markLabel_fil {s : State} {h : Nat} {p : PathRec} (hp : s.path h = some p) :
    ∃ q, (s.markLabel h).path h = some q ∧ q.fil = p.fil := by
  rw [State.markLabel, State.modPath_of_path _ hp, State.path_setPath_self]
  split
  · exact ⟨_, rfl, rfl⟩
  · exact ⟨_, rfl, rfl⟩

/-- What a received frame gives one path of a fed group. -/
def State.fedPath (f : RxFrame) (s : State) (e : FeedEntry × Nat) : State :=
  let s := match groupDelivery f e.1.first e.1.k with
    | some l => s.modFil e.2 (fun p fc => fc.burst p.k l)
    | none => s
  (s.markPath e.2).markLabel e.2

theorem State.fedGroups_eq (f : RxFrame) (l : List FeedEntry) (s : State) :
    l.foldl (fun s e => s.fedGroup f e) s =
      (l.flatMap (fun e => e.handles.map (fun h => (e, h)))).foldl (State.fedPath f) s := by
  rw [List.foldl_flatMap]
  congr 1
  funext s e
  rw [List.foldl_map]
  rfl

theorem State.fedPath_repaths (f : RxFrame) (s : State) (e : FeedEntry × Nat) :
    s.Repaths (· = e.2) (s.fedPath f e) := by
  unfold State.fedPath
  refine State.Repaths.trans ?_ (State.Repaths.modPath (H := (· = e.2)) rfl _)
  refine State.Repaths.trans ?_ (State.Repaths.markPath (H := (· = e.2)) rfl)
  split
  · exact .modPath (H := (· = e.2)) rfl _
  · exact .refl s

theorem State.fedPath_delivers {f : RxFrame} {s : State} {e : FeedEntry × Nat} {p : PathRec} {g : Fil} {l : List Byte}
    (hp : s.path e.2 = some p) (hg : p.fil = some g) (hroom : g.store.length ≤ capacity p.k)
    (hl : groupDelivery f e.1.first e.1.k = some l) :
    ∃ q g', (s.fedPath f e).path e.2 = some q ∧ q.fil = some g' ∧ g'.inStage = l ∧
      g'.store = (g.store ++ g.inStage).take (capacity p.k) := by
  have hmod : (s.modFil e.2 (fun p fc => fc.burst p.k l)).path e.2 = some { p with fil := some (g.burst p.k l) } := by
    rw [State.modFil, State.modPath_of_path _ hp, State.path_setPath_self, hg]
    rfl
  obtain ⟨q, g1, hq, hqf, hs, hi⟩ := State.markPath_fil hmod rfl
  obtain ⟨q', hq', hf'⟩ := State.markLabel_fil hq
  refine ⟨q', g1, ?_, hf'.trans hqf, hi, hs.trans (Fil.writeAll_store _ _ hroom)⟩
  simpa only [State.fedPath, hl] using hq'

/-- In a fold of operations each on the record of its key, with different keys, one key's record is changed by its own
operation alone. -/
theorem State.exists_path_foldl {α : Type} {f : State → α → State} {key : α → Nat}
    (hf : ∀ (s : State) a, s.Repaths (· = key a) (f s a)) {l : List α} (hl : (l.map key).Nodup) {a : α} (ha : a ∈ l) (s : State) :
    ∃ u : State, u.path (key a) = s.path (key a) ∧ (l.foldl f s).path (key a) = (f u a).path (key a) := by
  obtain ⟨l1, l2, rfl⟩ := List.append_of_mem ha
  have hother {m : List α} (hm : ∀ b ∈ m, key b ≠ key a) (t : State) : (m.foldl f t).path (key a) = t.path (key a) :=
    (State.Repaths.foldl (H := (· ≠ key a)) (fun u b hb => ⟨(hf u b).1, fun g hg => (hf u b).2 g fun hgb =>
      hm b hb (hgb ▸ not_not.mp hg)⟩) t).2 _ (not_not.mpr rfl)
  rw [List.map_append, List.nodup_append, List.map_cons, List.nodup_cons] at hl
  obtain ⟨_, ⟨ha2, _⟩, hdisj⟩ := hl
  refine ⟨l1.foldl f s, hother (fun b hb => hdisj _ (List.mem_map_of_mem hb) _ List.mem_cons_self) s, ?_⟩
  rw [List.foldl_append, List.foldl_cons]
  exact hother (fun b hb he => ha2 (he ▸ List.mem_map_of_mem hb)) _

theorem getLsbD_berthSet {b : Nat} (hb : b < 432) : ∀ {l : List Nat}, b ∈ l → (berthSet l).getLsbD b = true := by
  have hkeep (l : List Nat) : ∀ m : BitVec 432, m.getLsbD b = true →
      (l.foldl (fun m b => m ||| BitVec.twoPow 432 b) m).getLsbD b = true := by
    induction l with
    | nil => exact fun m hm => hm
    | cons a l ih => exact fun m hm => ih _ (by simp [hm])
  have hin (l : List Nat) : b ∈ l → ∀ m : BitVec 432, (l.foldl (fun m b => m ||| BitVec.twoPow 432 b) m).getLsbD b = true := by
    induction l with
    | nil => simp
    | cons a l ih =>
      intro h m
      rcases List.mem_cons.mp h with rfl | h
      · exact hkeep l _ (by simp [hb])
      · exact ih h _
  exact fun {l} h => hin l h _

theorem RxFrame.rising_of_wf {f : RxFrame} (h : f.wf = true) : Sparse.rising f.berths = true ∧ ∀ e ∈ f.berths, e.1 < 432 := by
  simp only [RxFrame.wf, Bool.and_eq_true, List.all_eq_true, decide_eq_true_eq] at h
  obtain ⟨⟨_, hb⟩, hr⟩ := h
  refine ⟨?_, fun e he => (hb e he).1⟩
  have hgo : ∀ l : Sparse RxBerth, (∀ e ∈ l.zip l.tail, e.1.1 < e.2.1) → Sparse.rising l = true := by
    intro l
    induction l with
    | nil => exact fun _ => rfl
    | cons a l ih =>
      cases l with
      | nil => exact fun _ => rfl
      | cons b l =>
        intro h
        simp only [Sparse.rising, Bool.and_eq_true, decide_eq_true_eq]
        exact ⟨h (a, b) (by simp), ih fun e he => h e (by simpa using Or.inr he)⟩
  exact hgo _ hr

/-- The carrier after a received frame is read (R29, R31, R32). -/
def Carrier.afterFrame (f : RxFrame) (r : Carrier) : Carrier :=
  { r with
    pos := some 0,
    ctlErr := min 65535 (r.ctlErr + controlErrors f),
    codes := f.berths.foldl (fun m e => Sparse.insert m e.1 (berthCode e.2)) r.codes,
    decoded := r.decoded ||| berthSet (f.berths.map (·.1)),
    prevIndex := if f.index.toNat < 16 then some f.index.toNat else none }

/-- The feed list of a carrier with its captures after a received frame (R32, R33). -/
def capturedFeed (f : RxFrame) (l : List FeedEntry) : List FeedEntry :=
  l.map (fun e => { e with cap := e.cap.frame f.index.toNat (Sparse.find f.berths e.first) })

/-- The state in which the fed paths take a received frame. -/
def State.frameStored (s : State) (c : Nat) (f : RxFrame) : State :=
  (s.putCarrier c ((s.carrier c).afterFrame f)).setFeed c (capturedFeed f (s.feed c))

theorem State.readFrame_eq (s : State) (c : Nat) (f : RxFrame) :
    s.readFrame c f = (((s.frameStored c f).feed c).foldl (fun s e => s.fedGroup f e) (s.frameStored c f)).scanFrame c
      (s.carrier c).prevIndex f := rfl

theorem fedPairs_capturedFeed (f : RxFrame) (l : List FeedEntry) :
    ((capturedFeed f l).flatMap (fun e => e.handles.map (fun h => (e, h)))).map (·.2) = l.flatMap (·.handles) := by
  simp [capturedFeed, List.map_flatMap, List.flatMap_map, Function.comp_def]

/-- Settles O15. -/
theorem carrierFrameIsRead : Obligations.CarrierFrameIsRead := by
  intro s c f hc hwf hT ha hpat hnodup
  obtain ⟨hris, hlt⟩ : Sparse.rising f.berths = true ∧ ∀ e ∈ f.berths, e.1 < 432 :=
    RxFrame.rising_of_wf (by simpa [Instr.wf, hc] using hwf)
  let v := s.putCarrier c { s.carrier c with miss := 0 }
  let w := v.frameStored c f
  have hvT : v.TablesOk := (State.Keeps.putCarrier (s := s) (c := c) (r := { s.carrier c with miss := 0 })
    fun h => ⟨h.1, Nat.zero_le _, h.2.2⟩).tables hT
  have hv := State.carrier_putCarrier_self hT c { s.carrier c with miss := 0 }
  have hw := State.carrier_putCarrier_self hvT c ((v.carrier c).afterFrame f)
  have hfeed : w.feed c = capturedFeed f (s.feed c) :=
    State.feed_setFeed_self (s := v.putCarrier c ((v.carrier c).afterFrame f))
      ((State.Keeps.putCarrier (s := v) (c := c) (r := (v.carrier c).afterFrame f)
        fun h => ⟨h.1, h.2.1, h.2.2.1, Nat.min_le_left _ _⟩).tables hvT) c _
  let L := (capturedFeed f (s.feed c)).flatMap (fun e => e.handles.map (fun h => (e, h)))
  have hL : (L.map (·.2)).Nodup := (fedPairs_capturedFeed f (s.feed c)).symm ▸ hnodup
  have hpaths : w.Repaths (fun h => ∃ e ∈ L, h = e.2) (L.foldl (State.fedPath f) w) :=
    .foldl (fun u e he => ⟨(State.fedPath_repaths f u e).1, fun g hg =>
      (State.fedPath_repaths f u e).2 g fun hge => hg ⟨e, he, hge⟩⟩) w
  obtain ⟨x, y, hscan⟩ := (L.foldl (State.fedPath f) w).exists_scanFrame c (v.carrier c).prevIndex f
  have hrun : exec (.carrierFrameReceived c f) s =
      .next (((L.foldl (State.fedPath f) w).setCrx { (L.foldl (State.fedPath f) w).crx with scan := x }).setCmd y) := by
    refine (if_neg (by omega)).trans ?_
    rw [if_pos ha, if_pos hpat, State.readFrame_eq, ← hscan, ← State.fedGroups_eq, ← hfeed]
  obtain ⟨hftm, hclp, _, hfil, hcbl, hhwy, hcnd, _, hpend⟩ := hpaths.blocks
  obtain ⟨⟨z, hz⟩, hother⟩ := hpaths
  have hcar : ((L.foldl (State.fedPath f) w).carrier c) = _ := (by rw [hz]; rfl : _ = w.carrier c).trans hw
  have hctl := congrArg Carrier.ctlErr hv
  obtain ⟨hcodes, hcodes'⟩ := Sparse.find_foldl_insert berthCode f.berths (s.carrier c).codes
    (((Sparse.rising_iff_pairwise _).mp hris).imp fun hab => Nat.ne_of_lt hab)
  have hmem (k : Nat) : k ∈ Sparse.keys f.berths ↔ ∃ e ∈ f.berths, e.1 = k := List.mem_map
  have hheld : ((L.foldl (State.fedPath f) w).carrier c).codes = f.berths.foldl
      (fun m e => Sparse.insert m e.1 (berthCode e.2)) (s.carrier c).codes := by
    rw [hcar]
    change List.foldl _ (v.carrier c).codes _ = _
    rw [hv]
  refine ⟨_, hrun, (congrArg Carrier.align hcar).trans ((congrArg Carrier.align hv).trans ha),
    (congrArg Carrier.miss hcar).trans (congrArg Carrier.miss hv),
    (congrArg Carrier.ctlErr hcar).trans (congrArg (fun n => min 65535 (n + controlErrors f)) hctl),
    fun e he => ⟨(congrArg (Sparse.find · e.1) hheld).trans (hcodes e he), ?_⟩,
    fun b hb => (congrArg (Sparse.find · b) hheld).trans (hcodes' b fun hk => ?_),
    fun e he h hh p g l hp hg hroom hl => ?_, fun h hh => hother h fun ⟨e, he, heq⟩ => ?_,
    hftm, hclp, hfil, hcbl, hhwy, hcnd, hpend⟩
  · have hdec : ((L.foldl (State.fedPath f) w).carrier c).decoded =
        (v.carrier c).decoded ||| berthSet (f.berths.map (·.1)) := congrArg Carrier.decoded hcar
    refine (congrArg (BitVec.getLsbD · e.1) hdec).trans ?_
    simp [getLsbD_berthSet (hlt e he) (List.mem_map_of_mem he)]
  · obtain ⟨e, he, hk'⟩ := (hmem b).mp hk
    exact hb e he hk'
  · have ha' : (({ e with cap := e.cap.frame f.index.toNat (Sparse.find f.berths e.first) } : FeedEntry), h) ∈ L :=
      List.mem_flatMap.mpr ⟨_, List.mem_map_of_mem he, List.mem_map_of_mem hh⟩
    obtain ⟨u, hu, hlast⟩ := State.exists_path_foldl (State.fedPath_repaths f) hL ha' w
    obtain ⟨q, g', hq, hqf, hi, hs⟩ := State.fedPath_delivers (s := u) (hu.trans hp) hg hroom hl
    exact ⟨q, g', hlast.trans hq, hqf, hi, hs⟩
  · obtain ⟨e', he', hmem'⟩ := List.mem_flatMap.mp he
    obtain ⟨e0, he0, rfl⟩ := List.mem_map.mp he'
    obtain ⟨h', hh', rfl⟩ := List.mem_map.mp hmem'
    exact hh e0 he0 (heq ▸ hh')

/-! ### A group from a builder to a receiver (R13, R29, R30) -/

theorem take_drop_flatMap_range {α : Type} {n : Nat} {f : Nat → List α} :
    ∀ {k i : Nat}, (∀ j, j < k → (f j).length = n) → i < k → (((List.range k).flatMap f).drop (n * i)).take n = f i
  | 0, _, _, hi => absurd hi (Nat.not_lt_zero _)
  | k + 1, i, hf, hi => by
    have hlen : ((List.range k).flatMap f).length = n * k := by
      rw [List.length_flatMap, List.map_congr_left (g := fun _ => n) fun j hj => hf j (by have := List.mem_range.mp hj; omega)]
      simp [Nat.mul_comm]
    rw [List.range_succ, List.flatMap_append]
    rcases Nat.lt_succ_iff_lt_or_eq.mp hi with h | rfl
    · have hroom : n * i + n ≤ n * k := by
        rw [← Nat.mul_succ]
        exact Nat.mul_le_mul_left n h
      rw [List.drop_append_of_le_length (by omega), List.take_append_of_le_length (by rw [List.length_drop]; omega)]
      exact take_drop_flatMap_range (fun j hj => hf j (by omega)) h
    · rw [← hlen, List.drop_left]
      simp [hf i hi]

theorem padTo_length (x : Byte) (n : Nat) (l : List Byte) : (padTo x n l).length = n := by
  simp [padTo]
  omega

theorem take_padTo {x : Byte} {n m : Nat} {l : List Byte} (hm : m ≤ l.length) (hn : l.length ≤ n) :
    (padTo x n l).take m = l.take m := by
  rw [padTo, List.take_of_length_le hn, List.take_append_of_le_length hm]

theorem positions_length (code : Code) (bytes : List Byte) (i : Nat) : (positions code bytes i).length = 91 := by
  cases i <;> cases code <;> simp [positions, firstPositions, padTo_length]

theorem berthBytes_length (code : Code) (x : Byte) (l : List Byte) : (berthBytes code x l).length = l.length + 4 := rfl

/-- Three equal copies of a code decode to it. -/
theorem decodeCopies_byte (code : Code) : decodeCopies code.byte code.byte code.byte = (code, false) := by
  cases code <;> rfl

theorem firstBytes_le (code : Code) : firstBytes code ≤ 91 := by cases code <;> decide

/-- The data bytes of the first berth of a group. -/
theorem take_positions_zero {code : Code} (hm : code ≠ .maintenance) (hi : code ≠ .idle) {bytes : List Byte}
    (hlen : firstBytes code ≤ bytes.length) :
    (positions code bytes 0).take (firstBytes code) = bytes.take (firstBytes code) := by
  have hpos : positions code bytes 0 = padTo 0x00 91 (bytes.take (firstBytes code)) := by
    cases code <;> simp_all [positions, firstPositions]
  have := firstBytes_le code
  rw [hpos, take_padTo (by simp; omega) (by simp; omega), List.take_take, Nat.min_self]

/-- The data bytes of a later berth of a group. -/
theorem take_positions_succ {code : Code} (hm : code ≠ .maintenance) (hi : code ≠ .idle) {bytes : List Byte} {j : Nat}
    (hlen : firstBytes code + 90 * (j + 1) ≤ bytes.length) :
    (positions code bytes (j + 1)).take 90 = (bytes.drop (firstBytes code + 90 * j)).take 90 := by
  have hpos : positions code bytes (j + 1) = padTo 0x00 91 ((bytes.drop (firstBytes code + 90 * j)).take 90) := by
    cases code <;> simp_all [positions]
  rw [hpos, take_padTo (by simp; omega) (by simp), List.take_take, Nat.min_self]

/-- The later berths of a group deliver the rest of its content. -/
theorem laterBytes_eq {f : RxFrame} {first : Nat} {code : Code} {bytes : List Byte} (hm : code ≠ .maintenance)
    (hi : code ≠ .idle) : ∀ {n j : Nat}, bytes.length = firstBytes code + 90 * (j + n) →
    (∀ i, j < i → i ≤ j + n → ∃ b, Sparse.find f.berths (first + i) = some b ∧ b.payload = positions code bytes i) →
    laterBytes f first (j + 1) n = bytes.drop (firstBytes code + 90 * j)
  | 0, j, hlen, _ => by simp [laterBytes, hlen]
  | n + 1, j, hlen, hb => by
    obtain ⟨b, hfind, hpay⟩ := hb (j + 1) (by omega) (by omega)
    have ih := laterBytes_eq (f := f) (first := first) hm hi (n := n) (j := j + 1) (by omega)
      fun i h1 h2 => hb i (by omega) (by omega)
    have hdrop : bytes.drop (firstBytes code + 90 * (j + 1)) = (bytes.drop (firstBytes code + 90 * j)).drop 90 := by
      rw [List.drop_drop]
      rfl
    have htake := take_positions_succ hm hi (bytes := bytes) (j := j) (by omega)
    simp only [laterBytes, hfind, ih, hpay, htake, hdrop, List.take_append_drop]

theorem groupDelivery_of_find {f : RxFrame} {first k : Nat} {b : RxBerth} (hfind : Sparse.find f.berths first = some b)
    (hm : berthCode b ≠ .maintenance) (hi : berthCode b ≠ .idle) :
    groupDelivery f first k = some (b.payload.take (firstBytes (berthCode b)) ++ laterBytes f first 1 (k - 1)) := by
  simp only [groupDelivery, hfind]

/-- Settles O16. -/
theorem groupBytesAreDelivered : Obligations.GroupBytesAreDelivered := by
  intro f first k code label bytes hk hm hi hlen hb
  have hberth (i : Nat) (hik : i < k) : ∃ b, Sparse.find f.berths (first + i) = some b ∧
      berthCode b = codeAt code i ∧ (i = 0 → b.label = label.zeroExtend 8) ∧ b.payload = positions code bytes i := by
    obtain ⟨b, hfind, hbytes⟩ := hb i hik
    have hgroup := take_drop_flatMap_range (n := 95) (f := fun i => berthBytes (codeAt code i)
      (if i = 0 && code != .idle then label.zeroExtend 8 else 0x00) (positions code bytes i))
      (fun j _ => by rw [berthBytes_length, positions_length]) hik
    have heq := hbytes.trans hgroup
    simp only [berthBytes, List.cons_append, List.nil_append, List.cons.injEq] at heq
    obtain ⟨h1, h2, h3, hlabel, hpay⟩ := heq
    exact ⟨b, hfind, by rw [berthCode, h1, h2, h3, decodeCopies_byte], fun h0 => by simpa [h0, hi] using hlabel, hpay⟩
  obtain ⟨b, hfind, hcode, hlabel, hpay⟩ := hberth 0 hk
  have hlater : laterBytes f first 1 (k - 1) = bytes.drop (firstBytes code + 90 * 0) :=
    laterBytes_eq hm hi (n := k - 1) (j := 0) (by omega) fun i h0 hi' => by
      obtain ⟨b', hfind', _, _, hpay'⟩ := hberth i (by omega)
      exact ⟨b', hfind', hpay'⟩
  have hcode' : berthCode b = code := by rw [hcode]; rfl
  refine ⟨?_, b, hfind, hcode', hlabel rfl⟩
  have hfirst := take_positions_zero hm hi (bytes := bytes) (by omega)
  rw [Nat.add_zero] at hfind
  have hjoin : b.payload.take (firstBytes code) ++ laterBytes f first 1 (k - 1) = bytes := by
    rw [hpay, hfirst, hlater, Nat.mul_zero, Nat.add_zero, List.take_append_drop]
  rw [groupDelivery_of_find hfind (hcode' ▸ hm) (hcode' ▸ hi), hcode', hjoin]

/-! ### A label cycle (R32, R33) -/

/-- The frame that begins a cycle. -/
theorem Capture.frame_zero {r : Capture} {b : RxBerth} (hb : berthCode b ≠ .idle) (hc : r.cycle = none)
    (hp : r.prev = none ∨ r.prev = some 15) :
    r.frame 0 (some b) = { r with prev := some 0, cycle := some (noChars.set 0 (some (b.label.truncate 7))) } := by
  rcases hp with hp | hp <;> simp [Capture.frame, breaksSchedule, hp, Capture.discard, hc, hb]

/-- A frame within a cycle. -/
theorem Capture.frame_within {r : Capture} {b : RxBerth} {x : Nat} {slots : List (Option Char7)}
    (hb : berthCode b ≠ .idle) (hx : x < 6) (hc : r.cycle = some slots) (hp : r.prev = some x) :
    r.frame (x + 1) (some b) =
      { r with prev := some (x + 1), cycle := some (slots.set (x + 1) (some (b.label.truncate 7))) } := by
  have hmod : (x + 1) % 16 = x + 1 ∧ (x + 1) % 8 = x + 1 := by omega
  simp [Capture.frame, breaksSchedule, hp, hc, hb, hmod, show x + 1 < 16 by omega, show ¬ 15 < x + 1 by omega,
    show ¬ x + 1 = 7 by omega]

/-- The frame that ends a cycle. -/
theorem Capture.frame_seven {r : Capture} {b : RxBerth} {slots : List (Option Char7)} (hb : berthCode b ≠ .idle)
    (hc : r.cycle = some slots) (hp : r.prev = some 6) :
    r.frame 7 (some b) = Capture.cycleEnd (slots.set 7 (some (b.label.truncate 7))) { r with prev := some 7 } := by
  simp [Capture.frame, breaksSchedule, hp, hc, hb]

theorem wholeLabel_map_some (l : Label) : wholeLabel (l.map some) = some l := by
  induction l with
  | nil => rfl
  | cons c l ih => simp [wholeLabel, ih]

/-- The end of a cycle with every slot filled. -/
theorem Capture.cycleEnd_map_some (l : Label) (r : Capture) :
    r.cycleEnd (l.map some) =
      { r with cycle := none, last := some l, confirmed := if r.last = some l then some l else r.confirmed } := by
  simp only [Capture.cycleEnd, wholeLabel_map_some]
  split <;> simp_all

/-- Settles O17. -/
theorem equalCyclesConfirmLabel : Obligations.EqualCyclesConfirmLabel := by
  intro r l hl hidle hcycle hprev
  obtain ⟨b0, b1, b2, b3, b4, b5, b6, b7, rfl⟩ : ∃ b0 b1 b2 b3 b4 b5 b6 b7, l = [b0, b1, b2, b3, b4, b5, b6, b7] := by
    match l, hl with
    | [b0, b1, b2, b3, b4, b5, b6, b7], _ => exact ⟨b0, b1, b2, b3, b4, b5, b6, b7, rfl⟩
  simp only [List.forall_mem_cons] at hidle
  obtain ⟨h0, h1, h2, h3, h4, h5, h6, h7, _⟩ := hidle
  simp only [Capture.frames]
  rw [Capture.frame_zero h0 hcycle hprev, Capture.frame_within h1 (x := 0) (by omega) rfl rfl,
    Capture.frame_within h2 (x := 1) (by omega) rfl rfl, Capture.frame_within h3 (x := 2) (by omega) rfl rfl,
    Capture.frame_within h4 (x := 3) (by omega) rfl rfl, Capture.frame_within h5 (x := 4) (by omega) rfl rfl,
    Capture.frame_within h6 (x := 5) (by omega) rfl rfl, Capture.frame_seven h7 rfl rfl]
  exact Capture.cycleEnd_map_some ([b0, b1, b2, b3, b4, b5, b6, b7].map (fun b => b.label.truncate 7)) _

/-! ### The label scan's beginning and end (R160, R163, R167, R168) -/

/-- A port whose results stage alike differs at most in what staging sets. -/
theorem Cmd.eq_of_stage_eq {c d : Cmd} (h : ∀ l w, c.stage l w = d.stage l w) (ph : Phase) (i : Option (Nat × List Byte))
    (g : Option (List Byte)) (o : List Byte) (w : Bool) :
    { c with phase := ph, inProgress := i, staged := g, outFifo := o, waiting := w } =
      { d with phase := ph, inProgress := i, staged := g, outFifo := o, waiting := w } :=
  congrArg (fun x : Cmd => { x with phase := ph, inProgress := i, staged := g, outFifo := o, waiting := w }) (h [] w)

/-- Settles O18. -/
theorem labelScanBegins : Obligations.LabelScanBegins := by
  rintro s p _ hs rfl
  obtain ⟨c, hrun, hstage⟩ := State.hostCommand_of_ready hs (.labelScan p)
  have hanswer (l : List Byte) : (s.setCmd c).answer l = s.answer l := congrArg s.setCmd (hstage l false)
  have hfifo : c.inFifo = [] := (congrArg Cmd.inFifo (hstage [] false)).trans hs.2
  have hexec : exec (.labelScan p) s = .next ((s.setCmd c).serveLabelScan p) := congrArg Host.Outcome.next hrun
  refine ⟨fun hr => ?_, fun hr ha => ?_, fun hr ha => ?_⟩ <;>
    rw [hexec, State.serveLabelScan, State.carrier_setCmd]
  · rw [if_pos (by simp [hr])]
    exact congrArg Host.Outcome.next (hanswer [1])
  · rw [if_neg (by simp [hr]), if_pos ha]
    exact congrArg Host.Outcome.next (hanswer _)
  · rw [if_neg (by simp [hr]), if_neg (not_not.mpr ha), State.beginScan, State.setCmd_cmd, hfifo]
    exact congrArg Host.Outcome.next (congrArg (State.setCmd _) (Cmd.eq_of_stage_eq hstage _ _ _ _ _))

/-- Settles O19. -/
theorem scanEndsWithResult : Obligations.ScanEndsWithResult := by
  refine fun s sc hsc => ⟨fun hstall => ?_, fun hphase hin => ?_⟩
  · change execScanStall s = _
    simp [execScanStall, hsc, hstall, State.stopScan, State.endScan, Scan.result]
  · change execScanAbort s = _
    have hcmd : { s.cmd with inFifo := s.cmd.inFifo.drop 1 } = s.cmd := by
      rw [show s.cmd.inFifo.drop 1 = s.cmd.inFifo by rw [hin]; rfl]
    unfold execScanAbort
    split
    · rw [hcmd, State.setCmd_self, State.stopScan]
      simp only [hsc]
      rfl
    · contradiction

end Sys2Proof.Machine

/-! ## Proofs: fill control, the carry queue and squelch -/

namespace Sys2Proof.Machine

/-! ### The bytes of a store (R65 to R67, R69) -/

theorem State.modFil_of_path {s : State} {h : Nat} {p : PathRec} {f : Fil} (hp : s.path h = some p) (hf : p.fil = some f)
    (g : PathRec → Fil → Fil) : s.modFil h g = s.setPath h { p with fil := some (g p f) } := by
  rw [State.modFil, State.modPath_of_path _ hp, hf]
  rfl

/-- Settles O21. -/
theorem storeBytesMove : Obligations.StoreBytesMove := by
  intro s h p f b r hp hf
  have hread : exec (.storeRead h) s =
      .next (s.setPath h { p with fil := some (if f.unread p.k = 0 then f else f.readOne) }) :=
    congrArg Host.Outcome.next (State.modFil_of_path hp hf _)
  have hwrite : exec (.inputStageWrite h) s = .next (s.setPath h { p with fil := some (f.stageWrite p.k) }) :=
    congrArg Host.Outcome.next (State.modFil_of_path hp hf _)
  refine ⟨fun hs hout => ?_, fun hs hout => ?_, fun hi hroom => ?_, fun hi hroom => ?_, fun hn hroom => ?_⟩
  · rw [hread, if_neg (by simp only [Fil.unread]; omega)]
    simp only [Fil.readOne, hs]
  · rw [hread, if_neg (by simp only [Fil.unread]; omega)]
    simp only [Fil.readOne, hs]
  · rw [hwrite]
    simp [Fil.stageWrite, hi, Fil.write, hroom]
  · rw [hwrite]
    simp [Fil.stageWrite, hi, Fil.write, hroom]
  · refine congrArg Host.Outcome.next ((State.modPath_of_path _ hp).trans ?_)
    simp [hn, hf, Fil.write, hroom]

/-! ### The end of an offset window (R76) -/

/-- Rounding to the nearest integer, halfway values away from zero. -/
theorem roundAway_spec (n : Int) {d : Nat} (hd : 0 < d) :
    2 * |n - roundAway n d * d| ≤ d ∧ (2 * |n - roundAway n d * d| = d → |n| < |roundAway n d * d|) := by
  obtain ⟨m, hm⟩ : ∃ m, (2 * n.natAbs + d) / (2 * d) = m := ⟨_, rfl⟩
  have hlow : 2 * d * m ≤ 2 * n.natAbs + d := hm ▸ Nat.mul_div_le _ _
  have hhigh : 2 * n.natAbs + d < 2 * d * (m + 1) := hm ▸ Nat.lt_mul_div_succ _ (by omega)
  obtain ⟨x, hx⟩ : ∃ x : Nat, d * m = x := ⟨_, rfl⟩
  rw [Nat.mul_assoc, hx] at hlow
  rw [Nat.mul_assoc, Nat.mul_succ, hx] at hhigh
  have hxm : (m : Int) * d = x := by rw [← hx]; push_cast; ring
  unfold roundAway
  rw [hm]
  split
  · rw [hxm]
    have := abs_cases (n - x)
    have := abs_cases n
    have := abs_cases (x : Int)
    omega
  · rw [neg_mul, hxm]
    have := abs_cases (n - -(x : Int))
    have := abs_cases n
    have := abs_cases (-(x : Int))
    omega

/-- Settles O22. -/
theorem windowEndGivesOffset : Obligations.WindowEndGivesOffset := by
  intro s h p f hp hf hk hc
  have hrun : exec (.windowEnd h) s = .next (s.setPath h { p with fil := some (f.windowEnd p.k) }) := by
    refine congrArg Host.Outcome.next ((State.modFil_of_path hp hf _).trans ?_)
    rw [if_pos hc]
  rw [hrun]
  refine ⟨fun hv => ⟨roundAway (f.wSum * 10000) (720 * p.k), ?_⟩, fun hv => by simp [Fil.windowEnd, hv]⟩
  obtain ⟨hnear, haway⟩ := roundAway_spec (f.wSum * 10000) (d := 720 * p.k) (by omega)
  push_cast at hnear haway
  refine ⟨hnear, haway, ?_⟩
  generalize hq : roundAway (f.wSum * 10000) (720 * p.k) = q
  simp only [Fil.windowEnd, hv, hq, if_true]
  split
  · simp [show ¬ q < -32767 by omega, show (32767 : Int) ≤ q by omega, *]
  · split
    · rw [show max (-32767) (min 32767 q) = -32767 by omega]
      simp [*]
    · rw [show max (-32767) (min 32767 q) = q by omega]
      simp [*]

/-! ### The decision (R71 to R75, R79, R81, R82) -/

/-- The end of a window leaves the store, the decision and the forced operation. -/
theorem Fil.windowEnd_fields (k : Nat) (f : Fil) :
    (f.windowEnd k).lastDec = f.lastDec ∧ (f.windowEnd k).lastForced = f.lastForced ∧
    (f.windowEnd k).forced = f.forced ∧ (f.windowEnd k).lastSteps = f.lastSteps := by
  unfold Fil.windowEnd
  dsimp only
  split
  · split
    · exact ⟨rfl, rfl, rfl, rfl⟩
    · split <;> exact ⟨rfl, rfl, rfl, rfl⟩
  · exact ⟨rfl, rfl, rfl, rfl⟩

/-- The window's account leaves the decision and the forced operation. -/
theorem Fil.account_fields (k : Nat) (b : Bool) (f : Fil) :
    (f.account k b).lastDec = f.lastDec ∧ (f.account k b).lastForced = f.lastForced ∧
    (f.account k b).forced = f.forced ∧ (f.account k b).lastSteps = f.lastSteps := by
  unfold Fil.account
  dsimp only
  generalize (if f.lastForced then f.wSum else _ : Int) = sum
  split
  · exact Fil.windowEnd_fields k _
  · exact ⟨rfl, rfl, rfl, rfl⟩

/-- What a decision with no slip and no defect makes of step 4's choice. -/
theorem Fil.decide_of_choose {c : FilConsts} {k : Nat} {f : Fil} {ch : Choice} (hs : f.slipPending = false)
    (hd : f.defectSeen = false) (hch : ({ f with spacing := min 255 (f.spacing + 1) } : Fil).choose c k = ch) :
    (f.decide c k).fil.lastDec = ch.dec ∧ (f.decide c k).fil.lastForced = ch.forced ∧
    (f.decide c k).fil.forced = ch.fil.forced ∧ (f.decide c k).fil.lastSteps = ch.fil.lastSteps ∧
    (f.decide c k).post = ch.post := by
  have hsettle : f.settle k = (f, none) := by simp [Fil.settle, hs, hd]
  have hpost : (if ch.post.isSome then ch.post else none) = ch.post := by cases ch.post <;> rfl
  simp only [Fil.decide, hsettle, satInc_eq_min, hch, hpost]
  obtain ⟨h1, h2, h3, h4⟩ := Fil.account_fields k f.slipPending { ch.fil with
    spacing := if ch.dec = Dec.normal then ch.fil.spacing else 0, lastDec := ch.dec, lastForced := ch.forced,
    outStage := [], outDec := ch.dec }
  exact ⟨h1, h2, h3, h4, trivial⟩

/-- Settles O25. -/
theorem forcedOperationSteps : Obligations.ForcedOperationSteps := by
  intro c k f o sp D ho hs hd hsp hD
  obtain ⟨ch, hch⟩ : ∃ ch, ({ f with spacing := min 255 (f.spacing + 1) } : Fil).choose c k = ch := ⟨_, rfl⟩
  obtain ⟨h1, h2, h3, h4, h5⟩ := Fil.decide_of_choose hs hd hch
  rw [h1, h2, h3, h4, h5, ← hch]
  subst hsp hD
  have hre (hn : o.nudge = false) : ({ f with spacing := min 255 (f.spacing + 1) } : Fil).choose c k =
      ({ f with spacing := min 255 (f.spacing + 1) } : Fil).recentre c k o := by simp [Fil.choose, ho, hn]
  have hnu (hn : o.nudge = true) : ({ f with spacing := min 255 (f.spacing + 1) } : Fil).choose c k =
      ({ f with spacing := min 255 (f.spacing + 1) } : Fil).nudge c k o := by simp [Fil.choose, ho, hn]
  refine ⟨fun hi => ?_, fun hi hn => ?_, fun hi hn hdir => ?_, fun hi hn hdir => ?_⟩
  · cases hn : o.nudge with
    | false => rw [hre hn]; simp [Fil.recentre, hi, ho]
    | true => rw [hnu hn]; simp [Fil.nudge, hi, ho]
  · rw [hre hn]
    refine ⟨fun hD => ?_, fun hD hst => ?_, fun hD hst => ?_, fun hD hst => ?_⟩ <;>
      rw [Fil.recentre, if_neg (by simp only; omega)]
    · rw [if_pos (by simpa [Fil.diff] using hD)]
      simp [Fil.endForced, ho]
    · rw [if_neg (by simp only [Fil.diff]; omega), if_pos hst]
      simp [Fil.diff, show (centre k : Int) < f.store.length by omega, Dir.dec, Forced.step]
    · rw [if_neg (by simp only [Fil.diff]; omega), if_pos hst]
      simp [Fil.diff, show ¬ (centre k : Int) < f.store.length by omega, Dir.dec, Forced.step]
    · rw [if_neg (by simp only [Fil.diff]; omega), if_neg (by omega)]
      simp [Fil.endForced, ho]
  · rw [hnu hn]
    refine ⟨fun hl => ?_, fun hl => ?_⟩ <;> simp only [Fil.nudge, hdir, Option.getD_some, if_neg (Nat.not_lt.mpr hi)]
    · simp [hl, Fil.endForced, ho]
    · rw [if_neg (by simpa using hl)]
      refine ⟨?_, ?_, fun hst => ?_, fun hst => ?_⟩
      · split <;> rfl
      · split <;> rfl
      · simp [hst, Forced.step]
      · simp [hst, Forced.step, Fil.endForced]
  · rw [hnu hn]
    refine ⟨fun hl => ?_, fun hl => ?_⟩ <;> simp only [Fil.nudge, hdir, Option.getD_some, if_neg (Nat.not_lt.mpr hi)]
    · simp [hl, Fil.endForced, ho]
    · rw [if_neg (by simp; omega)]
      constructor <;> split <;> rfl

/-! ### A decision point (R70 to R75, R82) -/

/-- Where no read is left to make, the reads of the path frame are complete. -/
theorem Fil.finishReads_of_length {k : Nat} {f : Fil} (h : f.outStage.length = frameBytes k f.outDec) :
    f.finishReads k = f := by simp [Fil.finishReads, Fil.unread, h, Fil.readMany]

theorem State.handHighway_of_path {s : State} {h : Nat} {q : PathRec} (hq : s.path h = some q) (p : PathRec) (bad : Bool)
    (c : Content) : ∃ x w, s.handHighway h p bad c = (s.setPath h { q with hw := { q.hw with content := x } }).setHwy w ∧
      (p.liveF = true → bad = false → x = some c) := by
  cases hl : p.liveF with
  | true =>
    simp only [State.handHighway, hl, if_true, State.modPath_of_path _ hq]
    exact ⟨some (if bad then { code := .maintenance, bytes := [] } else c), _, rfl, fun _ hb => by simp [hb]⟩
  | false =>
    refine ⟨none, s.hwy, ?_, by simp⟩
    simp only [State.handHighway, hl, State.modPath_of_path _ hq]
    rfl

/-- The source of a path is seen the same where its port, its carrier and the sizing are. -/
theorem State.notDelivering_congr {s u : State} {p q : PathRec} (hclp : u.clp = s.clp) (hcrx : u.crx = s.crx)
    (hsrc : q.source = p.source) (hk : q.k = p.k) : u.notDelivering q = s.notDelivering p := by
  have hsize (x : Nat) : u.portSize x = s.portSize x := by simp only [State.portSize, hclp]
  simp only [State.notDelivering, State.portAgrees, State.codeHeld, State.rx, State.carrier, hclp, hcrx, hsrc, hk, hsize]

/-- The fill context after an ordinary decision. -/
theorem Fil.decide_ordinary {c : FilConsts} {k : Nat} {f : Fil} (d : Dec) (sp : Nat) (hforced : f.forced = none)
    (hslip : f.slipPending = false) (hdef : f.defectSeen = false) (hcount : f.wCount + 1 < 8000)
    (hsp : sp = min 255 (f.spacing + 1)) :
    d = (if sp < c.n then .normal
      else if (c.h : Int) < (f.store.length : Int) - (centre k : Int) then .extra
      else if (f.store.length : Int) - (centre k : Int) < -(c.h : Int) then .short else .normal) →
    f.decide c k =
      { fil := { f with outStage := [], outDec := d, lastDec := d, lastForced := false,
                        spacing := (if d = .normal then sp else 0), wCount := f.wCount + 1,
                        wSum := f.wSum + (match d with | .extra => 1 | .short => -1 | .normal => 0) },
        content := { code := f.outDec.code, bytes := f.outStage }, post := none, slipped := false } := by
  intro hd
  have hord : ({ f with spacing := sp } : Fil).ordinary c k = d := by rw [hd]; rfl
  have hchoose : ({ f with spacing := min 255 (f.spacing + 1) } : Fil).choose c k =
      { dec := d, forced := false, fil := { f with spacing := sp }, post := none } := by
    rw [← hsp]
    simpa [Fil.choose, hforced] using hord
  have hsettle : f.settle k = (f, none) := by simp [Fil.settle, hslip, hdef]
  simp only [Fil.decide, hsettle, satInc_eq_min, hchoose, Fil.account]
  rw [if_neg (by omega)]
  cases d <;> simp [hslip, hdef, Int.sub_eq_add_neg]

/-- Where a content is handed on: the highway's content of a SOURCE path, the carry queue of a LOCAL path with a carrier
sink. -/
theorem State.handOn_of_path {s : State} {h : Nat} {q : PathRec} (hq : s.path h = some q) {p : PathRec}
    (hrole : p.role = .source ∨ (p.role = .loc ∧ ∃ c b, p.sink = some (.carrier c b))) (bad : Bool) (c : Content) :
    ∃ x y w, s.handOn h p bad c =
        (s.setPath h { q with carry := y, hw := { q.hw with content := x } }).setHwy w ∧
      (p.role = .loc → y = joinCarry q.carry c (s.debtorsOf h q)) ∧
      (p.role = .source → p.liveF = true → bad = false → x = some c) := by
  rcases hrole with hr | ⟨hr, ca, b, hsink⟩
  · obtain ⟨x, w, hrun, hx⟩ := State.handHighway_of_path hq p bad c
    exact ⟨x, q.carry, w, by simpa only [State.handOn, hr] using hrun, by simp [hr], fun _ => hx⟩
  · refine ⟨q.hw.content, joinCarry q.carry c (s.debtorsOf h q), s.hwy, ?_, fun _ => rfl, by simp [hr]⟩
    simp only [State.handOn, hr, hsink, State.carryJoin, State.modPath_of_path _ hq]
    rfl

/-- A path and the machine with the outcome of its decision, before the content is handed on. -/
def State.decided (s : State) (h : Nat) (p : PathRec) (d : Decided) : State :=
  let s := s.setPath h { p with fil := some d.fil, slipSeen := p.slipSeen || d.slipped, decided := true,
                                filNew := p.filNew || s.cmd.started }
  let s := if d.slipped then s.event .fillSlip (.path h) else s
  match d.post with | some c => s.post h c | none => s

/-- A decision point with all reads made. -/
theorem State.decisionPoint_eq {s : State} {h : Nat} {p : PathRec} {f : Fil} {bad : Bool}
    (hout : f.outStage.length = frameBytes p.k f.outDec) (hbad : (f.defectSeen || s.notDelivering p) = bad) :
    s.decisionPoint h p f = ((s.decided h p (({ f with defectSeen := bad } : Fil).decide s.fil p.k)).handOn h p bad
      (({ f with defectSeen := bad } : Fil).decide s.fil p.k).content).markPath h := by
  subst hbad
  unfold State.decisionPoint
  rw [Fil.finishReads_of_length hout]
  rfl

theorem exec_decisionPoint_of_path {s : State} {h : Nat} {p : PathRec} {f : Fil} (hp : s.path h = some p)
    (hf : p.fil = some f) : exec (.decisionPoint h) s = .next (if p.begun then s.decisionPoint h p f else s) := by
  change execDecisionPoint h s = _
  simp only [execDecisionPoint, hp, hf]

/-- Settles O23. -/
theorem ordinaryDecisionPoint : Obligations.OrdinaryDecisionPoint := by
  intro s h p f d sp hp hf
  have hrun := exec_decisionPoint_of_path hp hf
  refine ⟨fun hb => hrun.trans (by rw [hb]; rfl), fun hb hforced hslip hdef hsrc hout hcount hrole hsp hd => ?_⟩
  have hdec := Fil.decide_ordinary d sp (k := p.k) hforced hslip hdef hcount hsp hd
  let g : Fil := (f.decide s.fil p.k).fil
  let p1 : PathRec := { p with fil := some g, slipSeen := p.slipSeen || false, decided := true,
                               filNew := p.filNew || s.cmd.started }
  obtain ⟨x, y, w, hon, hy, hx⟩ := State.handOn_of_path (State.path_setPath_self s h p1) hrole false
    { code := f.outDec.code, bytes := f.outStage }
  let q : PathRec := { p1 with carry := y, hw := { p1.hw with content := x } }
  have hpoint : s.decisionPoint h p f = ((s.setPath h p1).setPath h q).setHwy w := by
    have hf' : ({ f with defectSeen := false } : Fil) = f := by rw [← hdef]
    have hdecided : s.decided h p (f.decide s.fil p.k) = s.setPath h p1 := by
      simp only [State.decided, p1, g, hdec]
      rfl
    rw [State.decisionPoint_eq (bad := false) hout (by rw [hdef, hsrc]; rfl), hf', hdecided,
      show (f.decide s.fil p.k).content = { code := f.outDec.code, bytes := f.outStage } by rw [hdec], hon]
    refine State.markPath_of_delivering (p := q) (State.path_setPath_self _ _ _) ?_
    exact (State.notDelivering_congr (s := s) (p := p) rfl rfl rfl rfl).trans hsrc
  refine ⟨((s.setPath h p1).setPath h q).setHwy w, q, hrun.trans (by rw [hb, if_pos rfl, hpoint]), State.path_setPath_self _ _ _,
    congrArg (fun x : Decided => some x.fil) hdec, hy, fun hr hl => hx hr hl rfl,
    rfl, rfl, fun e he => ?_, rfl, rfl, rfl, rfl, rfl, rfl, rfl, rfl⟩
  exact (State.path_setPath_ne (s.setPath h p1) q he).trans (State.path_setPath_ne s p1 he)

/-! ### A slip recovered (R73 to R75, R82) -/

/-- The fill context after a decision that recovers a slip. -/
theorem Fil.decide_slipped {c : FilConsts} {k : Nat} {f : Fil} (hslip : f.slipPending = true)
    (hcount : f.wCount + 1 < 8000) :
    let d := f.decide c k
    d.fil.store = f.store.drop (f.store.length - centre k) ++ List.replicate (centre k - f.store.length) 0x00 ∧
    d.fil.slips = min 65535 (f.slips + 1) ∧ d.fil.slipPending = false ∧ d.fil.wValid = false ∧ d.fil.outDec = .normal ∧
    d.fil.forced = none ∧ (∀ o, f.forced = some o → d.fil.lastSteps = o.steps) ∧ d.post = f.forced.map Forced.slipPost ∧
    d.slipped = true := by
  have hend : (f.recover k).endForced.forced = none ∧ (f.recover k).endForced.store = (f.recover k).store ∧
      (f.recover k).endForced.slips = (f.recover k).slips ∧ (f.recover k).endForced.slipPending = false ∧
      (f.recover k).endForced.wCount = f.wCount ∧
      ∀ o, f.forced = some o → (f.recover k).endForced.lastSteps = o.steps := by
    unfold Fil.endForced
    cases hfo : f.forced <;> simp [Fil.recover, hfo]
  have hlen : (f.recover k).endForced.store.length = centre k := by rw [hend.2.1, Fil.recover_length]
  have hsettle : f.settle k = ((f.recover k).endForced, f.forced.map Forced.slipPost) := by
    simp [Fil.settle, hslip, hend.1]
  obtain ⟨hforced, hstore, hslips, hpend, hwc, hsteps⟩ := hend
  generalize (f.recover k).endForced = g at hforced hstore hslips hpend hwc hsteps hlen hsettle
  have hchoose : ({ g with spacing := satInc 255 g.spacing } : Fil).choose c k =
      { dec := .normal, forced := false, fil := { g with spacing := satInc 255 g.spacing }, post := none } := by
    have hord : ({ g with spacing := satInc 255 g.spacing } : Fil).ordinary c k = .normal := by
      simp only [Fil.ordinary, Fil.diff, hlen, sub_self]
      rw [if_neg (show ¬ (0 : Int) > c.h by omega), if_neg (show ¬ (0 : Int) < -c.h by omega), ite_self]
    simpa [Fil.choose, hforced] using hord
  have hroom : ¬ 8000 ≤ g.wCount + 1 := by omega
  simp only [Fil.decide, hsettle, hchoose, Fil.account, if_neg hroom, hslip]
  refine ⟨hstore, hslips.trans (satInc_eq_min _ _), hpend, by simp, trivial, hforced, hsteps, by simp, trivial⟩

theorem State.cnd_event_congr {s u : State} (hcnd : u.cnd = s.cnd) (hftm : u.ftm = s.ftm) (k : CondKind) (o : CondObj) :
    (u.event k o).cnd = (s.event k o).cnd := by
  unfold State.event
  rw [hcnd, hftm]
  split
  · exact hcnd
  · rfl

/-- A path and the machine after a decision that recovered a slip: the event reaches CND, and what ends is posted. -/
theorem State.decided_of_slipped (s : State) (h : Nat) (p : PathRec) {d : Decided} (hd : d.slipped = true) :
    ∃ q, (s.decided h p d).path h = some q ∧ q.fil = some d.fil ∧ q.slipSeen = true ∧
      (s.decided h p d).cnd = (s.event .fillSlip (.path h)).cnd ∧
      ∀ c, d.post = some c → q.lastCompletion = some c ∧ (s.decided h p d).listed h = true := by
  let p1 : PathRec := { p with fil := some d.fil, slipSeen := p.slipSeen || true, decided := true,
                               filNew := p.filNew || s.cmd.started }
  let s1 := (s.setPath h p1).event .fillSlip (.path h)
  have hseen : p1.slipSeen = true := by simp [p1]
  have hpath : s1.path h = some p1 := by
    obtain ⟨c, hc⟩ := (s.setPath h p1).event_eq .fillSlip (.path h)
    simp only [s1, hc, State.path_setCnd, State.path_setPath_self]
  have hcnd : s1.cnd = (s.event .fillSlip (.path h)).cnd := State.cnd_event_congr (s := s) (u := s.setPath h p1) rfl rfl _ _
  have hrun : s.decided h p d = match d.post with | some c => s1.post h c | none => s1 := by
    simp only [State.decided, hd, if_true]
    rfl
  rw [hrun]
  cases d.post with
  | none => exact ⟨p1, hpath, rfl, hseen, hcnd, by simp⟩
  | some c =>
    obtain ⟨_, _, _, _, _, _, hfil, hlast⟩ := p1.posted_fields (s1.listed h) c
    refine ⟨_, State.path_post_self hpath c, hfil, ?_, (State.post_cnd _ _ _).trans hcnd, fun c' hc' => ?_⟩
    · unfold PathRec.posted
      split <;> exact hseen
    · cases hc'
      exact ⟨hlast, by simp [State.post_listed hpath c]⟩

/-- Marking leaves of a fill context all but its mark, and of a record all but the two marks. -/
theorem State.markPath_fields {s : State} {h : Nat} {p : PathRec} {f : Fil} (hp : s.path h = some p) (hf : p.fil = some f) :
    ∃ q b, (s.markPath h).path h = some q ∧ q.fil = some { f with defectSeen := b } ∧ q.slipSeen = p.slipSeen ∧
      q.lastCompletion = p.lastCompletion := by
  unfold State.markPath
  simp only [hp]
  split
  · exact ⟨_, true, State.path_setPath_self _ _ _, congrArg (Option.map _) hf, rfl, rfl⟩
  · exact ⟨p, f.defectSeen, hp, hf, rfl, rfl⟩

theorem State.Repaths.listed_eq {H : Nat → Prop} {s t : State} (h : s.Repaths H t) (g : Nat) : t.listed g = s.listed g := by
  obtain ⟨⟨x, rfl⟩, _⟩ := h
  rfl

/-- Settles O24. -/
theorem slipRecoveredAtDecisionPoint : Obligations.SlipRecoveredAtDecisionPoint := by
  intro s h p f hp hf hb hslip hout hcount hrole
  generalize hbad : (f.defectSeen || s.notDelivering p) = bad
  have hrun : exec (.decisionPoint h) s = _ := (exec_decisionPoint_of_path hp hf).trans
    (by rw [if_pos hb, State.decisionPoint_eq hout hbad])
  obtain ⟨hstore, hslips, hpend, hvalid, hdec, hforced, hsteps, hpost, hslipped⟩ :=
    Fil.decide_slipped (c := s.fil) (k := p.k) (f := { f with defectSeen := bad }) hslip hcount
  generalize ({ f with defectSeen := bad } : Fil).decide s.fil p.k = d at *
  obtain ⟨q1, hq1, hfil1, hseen1, hcnd1, hpost1⟩ := State.decided_of_slipped s h p hslipped
  obtain ⟨x, y, w, hon, _⟩ := State.handOn_of_path hq1 (.inl hrole) bad d.content
  let u := ((s.decided h p d).setPath h { q1 with carry := y, hw := { q1.hw with content := x } }).setHwy w
  obtain ⟨q2, b, hq2, hfil2, hseen2, hlast2⟩ := State.markPath_fields (s := u) (State.path_setPath_self _ _ _) hfil1
  have hmark := State.Repaths.markPath (H := (· = h)) (s := u) rfl
  have hcnd : (u.markPath h).cnd = (s.event .fillSlip (.path h)).cnd := hmark.blocks.2.2.2.2.2.2.1.trans hcnd1
  rw [hon] at hrun
  refine ⟨_, q2, _, hrun, hq2, hfil2, hstore, ?_, hslips, hpend, hvalid, hdec, hforced, hseen2.trans hseen1,
    fun o ho => ⟨hsteps o ho, ?_, ?_⟩, fun ht => ?_, fun ht => ?_⟩
  · rw [show d.fil.store.length = _ from congrArg List.length hstore]
    simp only [List.length_append, List.length_drop, List.length_replicate]
    omega
  · exact hlast2.trans (hpost1 _ (hpost.trans (congrArg (Option.map _) ho))).1
  · exact (hmark.listed_eq h).trans (hpost1 _ (hpost.trans (congrArg (Option.map _) ho))).2
  · exact hcnd.trans (by rw [State.event, if_pos ht])
  · exact hcnd.trans (by rw [State.event, if_neg ht]; rfl)

/-! ### The carry queue (R86, R87) -/

theorem takeCarry_of_debtor {d : Debtor} {e : CarryEntry} (he : d ∈ e.debtors) (r : List CarryEntry) :
    takeCarry d (e :: r) = (some e.content,
      if (e.debtors.filter (fun x => !(x == d))).isEmpty then r
      else { e with debtors := e.debtors.filter (fun x => !(x == d)) } :: r) := by
  simp [takeCarry, he]

theorem takeCarry_of_not_debtor {d : Debtor} {e : CarryEntry} (he : d ∉ e.debtors) (r : List CarryEntry) :
    takeCarry d (e :: r) = ((takeCarry d r).1, e :: (takeCarry d r).2) := by
  simp [takeCarry, he]

/-- Entries of which a place is no debtor stay ahead of what it takes. -/
theorem takeCarry_append {d : Debtor} {q : List CarryEntry} (hq : ∀ e ∈ q, d ∉ e.debtors) (r : List CarryEntry) :
    takeCarry d (q ++ r) = ((takeCarry d r).1, q ++ (takeCarry d r).2) := by
  induction q with
  | nil => rfl
  | cons a q ih =>
    rw [List.cons_append, takeCarry_of_not_debtor (hq a List.mem_cons_self),
      ih fun e he => hq e (List.mem_cons_of_mem _ he)]
    rfl

/-- Settles O27. -/
theorem carryQueueKeepsOrder : Obligations.CarryQueueKeepsOrder := by
  refine ⟨fun q x ds hds => ⟨fun hl => ?_, fun a b hq => ?_⟩, fun q x => rfl, fun d q hq => ?_,
    fun d q r e hq he => ⟨fun hleft => ?_, fun hleft => ?_⟩⟩
  · simp [joinCarry, hds, hl]
  · simp [joinCarry, hds, hq]
  · simpa [takeCarry] using takeCarry_append hq []
  · rw [takeCarry_append hq, takeCarry_of_debtor he, hleft]
    rfl
  · rw [takeCarry_append hq, takeCarry_of_debtor he, if_neg (by simpa using hleft)]

/-! ### Squelch (R93 to R95) -/

/-- A command that names a handle in use is served on its record. -/
theorem State.withHandle_of_path {s : State} {h : Nat} {p : PathRec} {b : Bool} (hh : h ≤ 1023)
    (hb : b = true → s.cmd.started = true) (hp : s.path h = some p) (f : PathRec → State) : s.withHandle h b f = f p := by
  rw [State.withHandle, if_neg (by omega), if_neg (by simpa using hb)]
  simp only [hp]

/-- Settles O28. -/
theorem squelchOnsetAndLift : Obligations.SquelchOnsetAndLift := by
  intro s h p hp hsink
  refine ⟨fun hs hh => ?_, fun hsel => by simp [PathRec.squelchOnset, hsink, hsel],
    fun hsel => by simp [PathRec.squelchOnset, hsel], fun q hq => ?_, fun hon hforced hquiet => ?_⟩
  · have hserve (flag : Nat) (hflag : flag ≤ 1) : exec (.squelch h flag) s =
        .next ((s.setPath h { p with sq := p.sq.command (flag == 1) }).answer [0]) := by
      obtain ⟨c, hrun, hstage⟩ := State.hostCommand_of_ready hs (.squelch h flag)
      refine congrArg Host.Outcome.next (hrun.trans ?_)
      have hpc : (s.setCmd c).path h = some p := hp
      change (s.setCmd c).serveSquelch h flag = _
      rw [State.serveSquelch, if_neg (by omega), State.withHandle_of_path hh (by simp) hpc, if_pos hsink]
      exact State.answer_setCmd (s := s.setPath h _) hstage [0]
    exact ⟨hserve 1 (Nat.le_refl 1), hserve 0 (Nat.zero_le 1)⟩
  · simp only [PathRec.squelchBoundary, hsink, if_true, satInc_eq_min, PathRec.mayLift]
    generalize (if p.sq.srcSeenMf then 0 else min 15 (p.sq.quiet + 1) : Nat) = n
    split
    · rename_i hlift
      simp only [Bool.and_eq_true, Bool.not_eq_true', decide_eq_true_eq] at hlift
      simp [hlift]
    · rename_i hlift
      simp only [Bool.and_eq_true, Bool.not_eq_true', decide_eq_true_eq, not_and] at hlift
      simpa using hlift
  · refine congrArg Host.Outcome.next ((State.modPath_of_path _ hp).trans ?_)
    simp [hsink, PathRec.mayLift, hon, hforced, hquiet]

end Sys2Proof.Machine

/-! ## Proofs: bytes of the command port -/

namespace Sys2Proof.Machine

/-! ### A result read out (R181, R184) -/

/-- Reading goes straight through what is left of a result. -/
theorem Cmd.reads_of_staged : ∀ (l : List Byte) (c : Cmd) (st : List Byte), c.outFifo ++ st = l → c.outFifo ≠ [] →
    c.staged = some st → c.phase = .result →
    (c.reads l.length).1 = l ∧ (c.reads l.length).2.phase = .command ∧ (c.reads l.length).2.staged = none ∧
    (c.reads l.length).2.outFifo = [] ∧ (c.reads l.length).2.waiting = false ∧
    ∀ n, n < l.length → (c.reads n).2.phase = .result
  | [], _, _, hl, hout, _, _ => absurd (List.append_eq_nil_iff.mp hl).1 hout
  | b :: l, c, st, hl, hout, hst, hph => by
    obtain ⟨r, hr⟩ : ∃ r, c.outFifo = b :: r := by
      cases ho : c.outFifo with
      | nil => exact absurd ho hout
      | cons a r =>
        rw [ho] at hl
        exact ⟨r, by rw [(List.cons.inj hl).1]⟩
    have hrest : r ++ st = l := by rw [hr] at hl; exact (List.cons.inj hl).2
    by_cases hend : l = []
    · obtain ⟨rfl, rfl⟩ := List.append_eq_nil_iff.mp (hrest.trans hend)
      subst hend
      have hread : c.read = { c with phase := .command, staged := none, outFifo := [], waiting := false, cpData := b } := by
        simp [Cmd.read, hr, hst]
      refine ⟨by simp [Cmd.reads, hread], by simp [Cmd.reads, hread], by simp [Cmd.reads, hread],
        by simp [Cmd.reads, hread], by simp [Cmd.reads, hread], fun n hn => ?_⟩
      rw [Nat.lt_one_iff.mp hn]
      exact hph
    · have hne : r ++ st.take 1 ≠ [] := fun h => hend (by
        obtain ⟨h1, h2⟩ := List.append_eq_nil_iff.mp h
        rw [← hrest, h1]
        simpa using h2)
      have hread : c.read = { c with staged := some (st.drop 1), outFifo := r ++ st.take 1, waiting := false, cpData := b } := by
        simp only [Cmd.read, hr, hst, Option.getD_some, List.isEmpty_iff, if_neg hne]
      obtain ⟨h1, h2, h3, h4, h5, h6⟩ := Cmd.reads_of_staged l c.read (st.drop 1)
        (by rw [hread, List.append_assoc, List.take_append_drop, hrest]) (by simpa [hread] using hne) (by simp [hread]) (by simp [hread, hph])
      refine ⟨by rw [List.length_cons, Cmd.reads, h1, hread], h2, h3, h4, h5, fun n hn => ?_⟩
      cases n with
      | zero => exact hph
      | succ n => exact h6 n (Nat.lt_of_succ_lt_succ hn)

/-- Settles O43. -/
theorem resultReadsInOrder : Obligations.ResultReadsInOrder := fun s l w hl =>
  Cmd.reads_of_staged l (s.cmd.stage l w) (l.drop 16) (List.take_append_drop 16 l) (State.Keeps.take_ne_nil hl) rfl rfl

/-! ### Bytes written, read and taken (R180 to R182) -/

/-- A ready port takes a byte as in COMMAND; a result is discarded before. -/
theorem State.takeByte_of_ready {s : State} (hx : s.cmd.phase ≠ .execution) : ∃ c, c.phase = .command ∧
    (∀ l w, c.stage l w = s.cmd.stage l w) ∧ (∀ b, s.takeByte b = (s.setCmd c).commandByte b) ∧
    (s.cmd.phase = .command → c = s.cmd) ∧ (s.cmd.phase = .result → c = s.cmd.discard) := by
  cases hp : s.cmd.phase with
  | command => exact ⟨s.cmd, hp, fun _ _ => rfl, fun b => by simp only [State.takeByte, hp]; rfl, fun _ => rfl, by simp⟩
  | result =>
    exact ⟨s.cmd.discard, rfl, fun l w => Cmd.stage_discard l w s.cmd, fun b => by simp only [State.takeByte, hp],
      by simp, fun _ => rfl⟩
  | execution => exact absurd hp hx

/-- Settles O42. -/
theorem portBytes : Obligations.PortBytes := by
  refine ⟨fun s b => ⟨fun h => ?_, fun h => ?_, rfl, fun h => ?_, fun r c rest h1 h2 => ?_, fun h1 h2 => ?_⟩,
    fun s b hs => ⟨fun hb hp => ?_, fun hb code l n hp hi hn hl => ?_, fun hb hn => ?_⟩⟩
  · exact congrArg Host.Outcome.next (if_pos h)
  · exact congrArg Host.Outcome.next (if_neg (by omega))
  · exact congrArg (fun c => Host.Outcome.next (s.setCmd c)) (by simp [Cmd.read, h])
  · exact congrArg (fun c => Host.Outcome.next (s.setCmd c)) (by simp [Cmd.read, h1, h2])
  · exact congrArg (fun c => Host.Outcome.next (s.setCmd c)) (by simp [Cmd.read, h1, h2])
  · obtain ⟨c, _, hstage, htake, hcmd, hres⟩ := State.takeByte_of_ready hs.1
    have hnone : c.inProgress = none := by
      cases hph : s.cmd.phase with
      | command => exact (hcmd hph ▸ hp.resolve_left (by simp [hph]) : _)
      | result => rw [hres hph]; rfl
      | execution => exact absurd hph hs.1
    refine (congrArg Host.Outcome.next (if_pos hb)).trans ?_
    rw [State.drain_of_inFifo_nil hs.2, htake, State.commandByte, if_pos hb, State.setCmd_cmd]
    simp only [hnone]
    exact congrArg Host.Outcome.next (State.answer_setCmd hstage [1])
  · refine (congrArg Host.Outcome.next (if_pos hb)).trans ?_
    rw [State.drain_of_inFifo_nil hs.2]
    simp only [State.takeByte, hp, State.commandByte, if_pos hb, hi, State.addParameter, hn, Option.getD_some,
      List.length_append, List.length_singleton, if_pos hl]
  · obtain ⟨c, _, hstage, htake, _⟩ := State.takeByte_of_ready hs.1
    refine (congrArg Host.Outcome.next (if_pos ⟨hb, by simp [hn]⟩)).trans ?_
    rw [State.drain_of_inFifo_nil hs.2, htake, State.commandByte, if_neg hb, State.beginCommand]
    simp only [hn]
    exact congrArg Host.Outcome.next (State.answer_setCmd (s := s) hstage [1])

/-! ### The bytes that spell a command (R182, R191) -/

theorem byte7_toNat (n : Nat) : (byte7 n).toNat = n % 128 := by
  simp only [byte7, BitVec.toNat_ofNat]
  omega

@[simp] theorem byte7_lt (n : Nat) : byte7 n < 0x80 := by
  rw [BitVec.lt_def, byte7_toNat]
  exact Nat.mod_lt _ (by decide)

theorem zeroExtend_lt (c : Char7) : c.zeroExtend 8 < (0x80 : Byte) := by
  rw [BitVec.lt_def]
  have := c.isLt
  change (BitVec.setWidth 8 c).toNat < _
  rw [BitVec.toNat_setWidth]
  exact (Nat.mod_le _ _).trans_lt this

/-- The number that a parameter byte carries is read back where it fits. -/
theorem parByte_byte7 {l : List Byte} {i n : Nat} (h : l.getD i 0 = byte7 n) (hn : n < 128) : parByte l i = n := by
  rw [parByte, h, byte7_toNat, Nat.mod_mod, Nat.mod_eq_of_lt hn]

theorem groups7_bytes2 {n : Nat} (hn : n < 16384) : groups7 (bytes2 n) = n := by
  simp only [groups7, bytes2, List.foldl_cons, List.foldl_nil, byte7_toNat]
  omega

theorem groups7_bytes3 {n : Nat} (hn : n < 2097152) : groups7 (bytes3 n) = n := by
  simp only [groups7, bytes3, List.foldl_cons, List.foldl_nil, byte7_toNat]
  omega

theorem parVal_bytes2 {l : List Byte} {i n : Nat} (h : (l.drop i).take 2 = bytes2 n) (hn : n < 16384) :
    parVal l i 2 = n := by rw [parVal, h, groups7_bytes2 hn]

theorem parVal_bytes3 {l : List Byte} {i n : Nat} (h : (l.drop i).take 3 = bytes3 n) (hn : n < 2097152) :
    parVal l i 3 = n := by rw [parVal, h, groups7_bytes3 hn]

theorem charBytes_truncate (l : Label) : (charBytes l).map (fun b => b.truncate 7) = l := by
  rw [charBytes, List.map_map]
  conv_rhs => rw [← List.map_id l]
  exact List.map_congr_left fun c _ => by simp

theorem parChars_charBytes {l post : List Byte} {i : Nat} {c : Label} (h : l.drop i = charBytes c ++ post)
    (hc : c.length = 8) : parChars l i = c := by
  have hlen : (charBytes c).length = 8 := by rw [charBytes, List.length_map, hc]
  rw [parChars, h, List.take_left' hlen, charBytes_truncate]

/-- The parameters of an endpoint, from their place in a list. -/
theorem parEndpoint_bytes {l post : List Byte} {i : Nat} {e : EpParam} (h : l.drop i = endpointBytes e ++ post)
    (ht : e.type < 128) (hn : e.number < 128) (hb : e.berth < 16384) : parEndpoint l i = e := by
  have hget (j : Nat) : l.getD (i + j) 0 = (endpointBytes e ++ post).getD j 0 := by
    rw [← h, List.getD_eq_getElem?_getD, List.getD_eq_getElem?_getD, List.getElem?_drop]
  have h2 : (l.drop (i + 2)).take 2 = bytes2 e.berth := by
    rw [← List.drop_drop, h]
    rfl
  rw [parEndpoint, parByte_byte7 (i := i) (hget 0) ht, parByte_byte7 (hget 1) hn, parVal_bytes2 h2 hb]

/-- The 8-bit sizing from its low seven bits and its high bit. -/
theorem ofNat_low_high (x : BitVec 8) : BitVec.ofNat 8 (x.toNat % 128 + 128 * (x.toNat / 128 % 128 % 2)) = x := by
  apply BitVec.eq_of_toNat_eq
  have := x.isLt
  rw [BitVec.toNat_ofNat]
  omega

theorem paramCount_params {c : HostCmd} (hc : c.fits = true) : paramCount c.code = some c.params.length := by
  cases c with
  | addPath p =>
    simp only [HostCmd.fits, Bool.and_eq_true, beq_iff_eq] at hc
    simp [HostCmd.params, HostCmd.code, paramCount, bytes3, endpointBytes, bytes2, charBytes, hc.2]
  | labelScan p =>
    simp only [HostCmd.fits, Bool.and_eq_true, beq_iff_eq] at hc
    simp [HostCmd.params, HostCmd.code, paramCount, bytes2, charBytes, hc.1.2]
  | _ => rfl

theorem params_lt (c : HostCmd) : ∀ b ∈ c.params, b < 0x80 := by
  have hchars (l : Label) : (∀ b ∈ charBytes l, b < 0x80) ↔ True := by
    refine iff_true_intro fun b hb => ?_
    obtain ⟨c, _, rfl⟩ := List.mem_map.mp hb
    exact zeroExtend_lt c
  cases c <;> simp only [HostCmd.params, bytes2, bytes3, endpointBytes, List.forall_mem_append, List.forall_mem_cons,
    List.not_mem_nil, false_implies, byte7_lt, hchars, zeroExtend_lt, and_self, implies_true]

/-- The parser reads back each parameter that fits the bytes it is spelled with. -/
theorem parseCommand_params {c : HostCmd} (hc : c.fits = true) : parseCommand c.code c.params = some c := by
  cases c <;> simp only [HostCmd.fits, Bool.and_eq_true, decide_eq_true_eq, beq_iff_eq] at hc
  case start p =>
    obtain ⟨⟨⟨⟨⟨⟨⟨⟨hst, hh⟩, hn⟩, hi⟩, hm⟩, ht⟩, he⟩, hg⟩, hho⟩ := hc
    have e0 : parByte (HostCmd.start p).params 0 = p.station := parByte_byte7 rfl hst
    have e1 : parByte (HostCmd.start p).params 1 = p.sizing.toNat % 128 :=
      (congrArg (· % 128) (byte7_toNat p.sizing.toNat)).trans (Nat.mod_mod _ _)
    have e2 : parByte (HostCmd.start p).params 2 = p.sizing.toNat / 128 % 128 :=
      (congrArg (· % 128) (byte7_toNat (p.sizing.toNat / 128))).trans (Nat.mod_mod _ _)
    have e3 : parByte (HostCmd.start p).params 3 = p.h := parByte_byte7 rfl hh
    have e4 : parByte (HostCmd.start p).params 4 = p.n := parByte_byte7 rfl hn
    have e5 : parByte (HostCmd.start p).params 5 = p.i := parByte_byte7 rfl hi
    have e6 : parVal (HostCmd.start p).params 6 2 = p.m := parVal_bytes2 rfl hm
    have e8 : parByte (HostCmd.start p).params 8 = p.timeout := parByte_byte7 rfl ht
    have e9 : parByte (HostCmd.start p).params 9 = p.expiry := parByte_byte7 rfl (by omega)
    have e10 : parByte (HostCmd.start p).params 10 = p.guard := parByte_byte7 rfl hg
    have e11 : parByte (HostCmd.start p).params 11 = p.holdoff := parByte_byte7 rfl hho
    simp only [HostCmd.code, parseCommand, e0, e1, e2, e3, e4, e5, e6, e8, e9, e10, e11, ofNat_low_high,
      Nat.mod_eq_of_lt he]
  case addPath p =>
    obtain ⟨⟨⟨⟨⟨⟨⟨⟨⟨⟨⟨ht, hr⟩, hs⟩, hst⟩, hsn⟩, hsb⟩, hkt⟩, hkn⟩, hkb⟩, hrem⟩, hl⟩, hlab⟩ := hc
    have hsq : ((HostCmd.addPath p).params.getD 23 0).truncate 7 = p.squelch := by
      have hget : (HostCmd.addPath p).params.getD 23 0 = p.squelch.zeroExtend 8 := by
        simp [HostCmd.params, bytes3, endpointBytes, bytes2, charBytes, hlab]
      rw [hget]
      simp
    have e0 : parVal (HostCmd.addPath p).params 0 3 = p.tag := parVal_bytes3 rfl ht
    have e3 : parByte (HostCmd.addPath p).params 3 = p.role := parByte_byte7 rfl hr
    have e4 : parByte (HostCmd.addPath p).params 4 = p.size := parByte_byte7 rfl hs
    have e5 : parEndpoint (HostCmd.addPath p).params 5 = p.source := parEndpoint_bytes rfl hst hsn hsb
    have e9 : parEndpoint (HostCmd.addPath p).params 9 = p.sink := parEndpoint_bytes rfl hkt hkn hkb
    have e13 : parByte (HostCmd.addPath p).params 13 = p.remote := parByte_byte7 rfl hrem
    have e14 : parByte (HostCmd.addPath p).params 14 = p.hasLabel := parByte_byte7 rfl (by omega)
    have e15 : parChars (HostCmd.addPath p).params 15 = p.label := parChars_charBytes rfl hlab
    simp only [HostCmd.code, parseCommand, e0, e3, e4, e5, e9, e13, e14, e15, hsq, Nat.mod_eq_of_lt hl]
  case labelScan p =>
    obtain ⟨⟨⟨⟨⟨⟨⟨hca, hsz⟩, hf⟩, hl⟩, hst⟩, hm⟩, hpat⟩, hsk⟩ := hc
    have hget : (HostCmd.labelScan p).params.getD 16 0 = byte7 p.skip := by
      simp [HostCmd.params, bytes2, charBytes, hpat]
    have e0 : parByte (HostCmd.labelScan p).params 0 = p.carrier := parByte_byte7 rfl hca
    have e1 : parByte (HostCmd.labelScan p).params 1 = p.size := parByte_byte7 rfl hsz
    have e2 : parVal (HostCmd.labelScan p).params 2 2 = p.first := parVal_bytes2 rfl hf
    have e4 : parVal (HostCmd.labelScan p).params 4 2 = p.last := parVal_bytes2 rfl hl
    have e6 : parByte (HostCmd.labelScan p).params 6 = p.step := parByte_byte7 rfl hst
    have e7 : parByte (HostCmd.labelScan p).params 7 = p.mode := parByte_byte7 rfl hm
    have e8 : parChars (HostCmd.labelScan p).params 8 = p.pattern := parChars_charBytes rfl hpat
    have e16 : parByte (HostCmd.labelScan p).params 16 = p.skip := parByte_byte7 hget (by omega)
    simp only [HostCmd.code, parseCommand, e0, e1, e2, e4, e6, e7, e8, e16, Nat.mod_eq_of_lt hsk]
  case setReport p =>
    obtain ⟨⟨⟨⟨⟨⟨⟨h0, h1⟩, h2⟩, h3⟩, h4⟩, h5⟩, h6⟩, h7⟩ := hc
    have e0 : parByte (HostCmd.setReport p).params 0 = p.kind := parByte_byte7 rfl h0
    have e1 : parByte (HostCmd.setReport p).params 1 = p.type := parByte_byte7 rfl h1
    have e2 : parByte (HostCmd.setReport p).params 2 = p.raiseM := parByte_byte7 rfl h2
    have e3 : parByte (HostCmd.setReport p).params 3 = p.raiseE := parByte_byte7 rfl h3
    have e4 : parByte (HostCmd.setReport p).params 4 = p.clearM := parByte_byte7 rfl h4
    have e5 : parByte (HostCmd.setReport p).params 5 = p.clearE := parByte_byte7 rfl h5
    have e6 : parByte (HostCmd.setReport p).params 6 = p.repeatM := parByte_byte7 rfl h6
    have e7 : parByte (HostCmd.setReport p).params 7 = p.repeatE := parByte_byte7 rfl h7
    simp only [HostCmd.code, parseCommand, e0, e1, e2, e3, e4, e5, e6, e7]
  case movePath h form c b =>
    obtain ⟨⟨⟨hh, hf⟩, hca⟩, hb⟩ := hc
    have e0 : parVal (HostCmd.movePath h form c b).params 0 2 = h := parVal_bytes2 rfl hh
    have e2 : parByte (HostCmd.movePath h form c b).params 2 = form := parByte_byte7 rfl hf
    have e3 : parByte (HostCmd.movePath h form c b).params 3 = c := parByte_byte7 rfl hca
    have e4 : parVal (HostCmd.movePath h form c b).params 4 2 = b := parVal_bytes2 rfl hb
    simp only [HostCmd.code, parseCommand, e0, e2, e3, e4]
  case nudge h dir count =>
    obtain ⟨⟨hh, hd⟩, hn⟩ := hc
    have e0 : parVal (HostCmd.nudge h dir count).params 0 2 = h := parVal_bytes2 rfl hh
    have e2 : parByte (HostCmd.nudge h dir count).params 2 = dir := parByte_byte7 rfl hd
    have e3 : parByte (HostCmd.nudge h dir count).params 3 = count := parByte_byte7 rfl hn
    simp only [HostCmd.code, parseCommand, e0, e2, e3]
  case squelch h flag =>
    obtain ⟨hh, hf⟩ := hc
    have e0 : parVal (HostCmd.squelch h flag).params 0 2 = h := parVal_bytes2 rfl hh
    have e2 : parByte (HostCmd.squelch h flag).params 2 = flag := parByte_byte7 rfl hf
    simp only [HostCmd.code, parseCommand, e0, e2]
  case readCells first count =>
    obtain ⟨hh, hn⟩ := hc
    have e0 : parVal (HostCmd.readCells first count).params 0 2 = first := parVal_bytes2 rfl hh
    have e2 : parByte (HostCmd.readCells first count).params 2 = count := parByte_byte7 rfl hn
    simp only [HostCmd.code, parseCommand, e0, e2]
  case deletePath h => exact congrArg (fun n => some (HostCmd.deletePath n)) (parVal_bytes2 rfl hc)
  case enablePath h => exact congrArg (fun n => some (HostCmd.enablePath n)) (parVal_bytes2 rfl hc)
  case disablePath h => exact congrArg (fun n => some (HostCmd.disablePath n)) (parVal_bytes2 rfl hc)
  case recentre h => exact congrArg (fun n => some (HostCmd.recentre n)) (parVal_bytes2 rfl hc)
  case readPath h => exact congrArg (fun n => some (HostCmd.readPath n)) (parVal_bytes2 rfl hc)
  all_goals rfl

theorem code_range (c : HostCmd) : 0x80 ≤ c.code ∧ c.code < 256 := by
  cases c <;> simp [HostCmd.code]

theorem codeByte_toNat (c : HostCmd) : (BitVec.ofNat 8 c.code).toNat = c.code := by
  rw [BitVec.toNat_ofNat, Nat.mod_eq_of_lt (code_range c).2]

theorem codeByte_not_lt (c : HostCmd) : ¬ BitVec.ofNat 8 c.code < 0x80 := by
  rw [BitVec.lt_def, codeByte_toNat]
  exact Nat.not_lt.mpr (code_range c).1

/-- The parameter bytes of a command in progress are taken one by one, and the last one serves it. -/
theorem State.takeBytes_params {k : HostCmd} {code : Nat} (hcount : ∀ n, paramCount code = some n → n = k.params.length)
    (hsome : (paramCount code).isSome = true) (hparse : parseCommand code k.params = some k) :
    ∀ (l pre : List Byte) (s : State), k.params = pre ++ l → l ≠ [] → s.cmd.phase = .command →
      s.cmd.inProgress = some (code, pre) → s.takeBytes l = (s.setCmd { s.cmd with inProgress := none }).serve k
  | [], _, _, _, h, _, _ => absurd rfl h
  | b :: l, pre, s, hk, _, hp, hi => by
    obtain ⟨n, hn⟩ := Option.isSome_iff_exists.mp hsome
    have hlen : n = (pre ++ b :: l).length := (hcount n hn).trans (congrArg List.length hk)
    have hlt : b < 0x80 := params_lt k b (by rw [hk]; simp)
    have htake : s.takeByte b = s.addParameter code pre b := by
      simp only [State.takeByte, hp, State.commandByte, if_pos hlt, hi]
    have hcons : s.takeBytes (b :: l) = (s.takeByte b).takeBytes l := rfl
    rw [hcons, htake, State.addParameter, hn]
    by_cases hl : l = []
    · subst hl
      rw [if_neg (by simp [hlen]), ← hk, hparse]
      rfl
    · have hpos : 0 < l.length := List.length_pos_iff.mpr hl
      rw [if_pos (by simp [hlen]; omega)]
      exact State.takeBytes_params hcount hsome hparse l (pre ++ [b])
        (s.setCmd { s.cmd with inProgress := some (code, pre ++ [b]) }) (by simpa using hk) hl hp rfl

/-- A ready port serves a command as its row does when it takes the bytes that spell it. -/
theorem State.takeBytes_encodeCommand {s : State} {k : HostCmd} (hk : k.fits = true) (hs : s.ready) :
    s.takeBytes (encodeCommand k) = s.hostCommand k := by
  obtain ⟨c, hph, _, htake, hcmd, hres⟩ := State.takeByte_of_ready hs.1
  have hhost : s.hostCommand k = (s.setCmd { c with inProgress := none }).serve k := by
    unfold State.hostCommand
    rw [State.drain_of_inFifo_nil hs.2]
    cases hp : s.cmd.phase with
    | command => simp only [hp, hcmd hp]
    | result =>
      simp only [hp, hres hp]
      rfl
    | execution => exact absurd hp hs.1
  have hcons : s.takeBytes (encodeCommand k) =
      ((s.setCmd c).commandByte (BitVec.ofNat 8 k.code)).takeBytes k.params := by rw [← htake]; rfl
  rw [hcons, hhost, State.commandByte, if_neg (codeByte_not_lt k), State.beginCommand, codeByte_toNat,
    paramCount_params hk]
  have hparse := parseCommand_params hk
  cases hpar : k.params with
  | nil =>
    rw [hpar] at hparse
    simp only [List.length_nil, hparse]
    rfl
  | cons b l =>
    refine State.takeBytes_params (code := k.code) (fun n hn => ?_) (by rw [paramCount_params hk]; rfl) hparse
      (b :: l) [] _ hpar (by simp) hph rfl
    exact (Option.some.inj ((paramCount_params hk).symm.trans hn)).symm

/-! ### The input FIFO as bytes are taken (R181) -/

@[simp] theorem State.answer_inFifo (s : State) (l : List Byte) : (s.answer l).cmd.inFifo = s.cmd.inFifo := rfl
@[simp] theorem State.answerCode_inFifo (s : State) (t : Term) : (s.answerCode t).cmd.inFifo = s.cmd.inFifo := rfl

theorem State.withHandle_inFifo {s : State} {h : Nat} {b : Bool} {f : PathRec → State}
    (hf : ∀ p, s.path h = some p → (f p).cmd.inFifo = s.cmd.inFifo) : (s.withHandle h b f).cmd.inFifo = s.cmd.inFifo := by
  unfold State.withHandle
  split
  · rfl
  · split
    · rfl
    · split
      · rfl
      · exact hf _ ‹_›

theorem State.started_inFifo (s : State) (p : StartP) : (s.started p).cmd.inFifo = s.cmd.inFifo := by
  obtain ⟨_, _, _, _, _, hcmd, _⟩ := (State.Reworks.markPorts ((s.sized p).stationed p) (List.range 32)).sameBlocks.blocks
  rw [State.started_eq, hcmd, State.stationed, State.setCmd_cmd, State.sized_cmd]

theorem State.answer_inFifo_of_cmd {s t : State} (h : t.cmd = s.cmd) (l : List Byte) :
    (t.answer l).cmd.inFifo = s.cmd.inFifo := (t.answer_inFifo l).trans (congrArg Cmd.inFifo h)

theorem State.serveForced_inFifo (s : State) (h : Nat) (op : PathRec → Forced) :
    (s.serveForced h op).cmd.inFifo = s.cmd.inFifo := by
  refine State.withHandle_inFifo fun p _ => ?_
  split
  · rfl
  · split
    · rfl
    · split <;> rfl

theorem State.serveMove_inFifo (s : State) (h form c b : Nat) : (s.serveMove h form c b).cmd.inFifo = s.cmd.inFifo := by
  have hberths (p : PathRec) (c' b' : Nat) : (s.serveMoveBerths h p c b c' b').cmd.inFifo = s.cmd.inFifo := by
    unfold State.serveMoveBerths
    split
    · rfl
    · split <;> rfl
  unfold State.serveMove
  split
  · rfl
  · refine State.withHandle_inFifo fun p _ => ?_
    split
    · rfl
    · split
      · split
        · split
          · exact hberths p _ _
          · rfl
        · rfl
      · split <;> rfl

/-- Serving a command takes at most one byte more from the input FIFO: the one that aborts a scan as it begins. -/
theorem State.serve_inFifo_length (s : State) (c : HostCmd) : (s.serve c).cmd.inFifo.length ≤ s.cmd.inFifo.length := by
  have of_eq {t : State} (h : t.cmd.inFifo = s.cmd.inFifo) : t.cmd.inFifo.length ≤ s.cmd.inFifo.length :=
    (congrArg List.length h).le
  cases c with
  | labelScan p =>
    change (s.serveLabelScan p).cmd.inFifo.length ≤ _
    unfold State.serveLabelScan
    split
    · exact Nat.le_refl _
    · split
      · exact Nat.le_refl _
      · unfold State.beginScan
        split
        · exact Nat.le_refl _
        · rename_i b r hr
          rw [hr]
          exact Nat.le_succ _
  | start p =>
    refine of_eq ?_
    change (s.serveStart p).cmd.inFifo = _
    unfold State.serveStart
    split
    · rfl
    · split
      · rfl
      · exact (State.answer_inFifo _ _).trans (State.started_inFifo s p)
  | addPath p =>
    refine of_eq ?_
    change (s.serveAdd p).cmd.inFifo = _
    unfold State.serveAdd
    split
    · rfl
    · split
      · rfl
      · exact State.answer_inFifo_of_cmd (by rw [State.addRecord_eq, State.bound_cmd, State.setPath_cmd]) _
  | deletePath h => exact of_eq (State.withHandle_inFifo fun p _ => State.answer_inFifo_of_cmd (s.delete_cmd h p) _)
  | enablePath h =>
    refine of_eq (State.withHandle_inFifo fun p _ => ?_)
    split <;> rfl
  | disablePath h =>
    refine of_eq (State.withHandle_inFifo fun p hp => ?_)
    split
    · rfl
    · have hr : State.Reworks (· = h) s (s.disable h p) := .disable rfl hp
      obtain ⟨_, _, _, _, _, hcmd, _⟩ := hr.sameBlocks.blocks
      exact State.answer_inFifo_of_cmd hcmd _
  | movePath h form c b => exact of_eq (s.serveMove_inFifo h form c b)
  | recentre h => exact of_eq (s.serveForced_inFifo h _)
  | nudge h dir count =>
    refine of_eq ?_
    change (s.serveNudge h dir count).cmd.inFifo = _
    unfold State.serveNudge
    split
    · rfl
    · exact s.serveForced_inFifo h _
  | squelch h flag =>
    refine of_eq ?_
    change (s.serveSquelch h flag).cmd.inFifo = _
    unfold State.serveSquelch
    split
    · rfl
    · refine State.withHandle_inFifo fun p _ => ?_
      split <;> rfl
  | readPath h => exact of_eq (State.withHandle_inFifo fun p _ => rfl)
  | readCells first count =>
    refine of_eq ?_
    change (s.serveReadCells first count).cmd.inFifo = _
    unfold State.serveReadCells
    split <;> rfl
  | sense =>
    refine of_eq ?_
    change s.serveSense.cmd.inFifo = _
    unfold State.serveSense
    split
    · rfl
    · dsimp only
      split <;> rfl
  | setReport p =>
    refine of_eq ?_
    change (s.serveSetReport p).cmd.inFifo = _
    unfold State.serveSetReport
    split
    · split <;> rfl
    · rfl
  | readStation => exact of_eq (State.answer_inFifo_of_cmd (State.foldl_clear_cmd _ _) _)
  | readConditions => exact Nat.le_refl _
  | defaults => exact Nat.le_refl _
  | quiet => exact Nat.le_refl _
  | resume => exact Nat.le_refl _

theorem State.commandByte_inFifo_length (s : State) (b : Byte) :
    (s.commandByte b).cmd.inFifo.length ≤ s.cmd.inFifo.length := by
  have serve (x : Option (Nat × List Byte)) (k : HostCmd) :
      ((s.setCmd { s.cmd with inProgress := x }).serve k).cmd.inFifo.length ≤ s.cmd.inFifo.length :=
    State.serve_inFifo_length (s.setCmd { s.cmd with inProgress := x }) k
  unfold State.commandByte
  split
  · split
    · unfold State.addParameter
      split
      · exact Nat.le_refl _
      · split
        · exact serve none _
        · exact Nat.le_refl _
    · exact Nat.le_refl _
  · unfold State.beginCommand
    split
    · exact Nat.le_refl _
    · split
      · exact serve none _
      · exact Nat.le_refl _
    · exact Nat.le_refl _

theorem State.takeByte_inFifo_length (s : State) (b : Byte) : (s.takeByte b).cmd.inFifo.length ≤ s.cmd.inFifo.length := by
  unfold State.takeByte
  split
  · exact s.commandByte_inFifo_length b
  · unfold State.stopScan
    split <;> exact Nat.le_refl _
  · exact (s.setCmd s.cmd.discard).commandByte_inFifo_length b

/-- Taking as many bytes as wait, or more, leaves none. -/
theorem State.takeMany_inFifo : ∀ (n : Nat) (s : State), s.cmd.inFifo.length ≤ n → (s.takeMany n).cmd.inFifo = []
  | 0, _, h => List.length_eq_zero_iff.mp (Nat.le_zero.mp h)
  | n + 1, s, h => by
    refine State.takeMany_inFifo n s.takeOne ?_
    unfold State.takeOne
    split
    · rename_i hnil
      simp [hnil]
    · rename_i b r hr
      have := (s.setCmd { s.cmd with inFifo := r }).takeByte_inFifo_length b
      rw [hr, List.length_cons] at h
      exact this.trans (Nat.le_of_succ_le_succ h)

/-- Settles O44. -/
theorem hostBytesSpellCommands : Obligations.HostBytesSpellCommands := by
  refine ⟨fun c hc => ⟨paramCount_params hc, parseCommand_params hc, params_lt c, codeByte_not_lt c⟩,
    fun s c hc hs => State.takeBytes_encodeCommand hc hs, fun s c => ?_⟩
  have hdrain : s.drain.cmd.inFifo = [] := State.takeMany_inFifo _ s (Nat.le_refl _)
  refine ⟨hdrain, ?_⟩
  unfold State.hostCommand
  rw [State.drain_of_inFifo_nil hdrain]

end Sys2Proof.Machine

/-! ## Proofs: host commands on paths -/

namespace Sys2Proof.Machine

/-! ### A command served by a ready port -/

/-- A ready port serves a command: the row's outcome is what serving it answers, from a state that differs from this one
at most in the port's progress. -/
theorem State.serve_of_ready {s : State} (hs : s.ready) (k : HostCmd) : ∃ c, s.hostCommand k = (s.setCmd c).serve k ∧
    (∀ l w, c.stage l w = s.cmd.stage l w) ∧ c.started = s.cmd.started ∧
    (∀ l, (s.setCmd c).answer l = s.answer l) := by
  obtain ⟨c, hrun, hstage⟩ := State.hostCommand_of_ready hs k
  have hstarted := congrArg Cmd.started (hstage [] false)
  exact ⟨c, hrun, hstage, hstarted, State.answer_setCmd hstage⟩

/-! ### START (R16, R63, R91, R100, R186) -/

theorem State.rx_putRx_self {s : State} (hT : s.TablesOk) (q : Nat) (r : RxSide) :
    (s.putRx q r).rx q = { r with losSeen := r.losSeen || r.los, loaSeen := r.loaSeen || !(r.align == .aligned),
                                  maintSeen := r.maintSeen || r.maint } := by
  obtain ⟨_, _, _, _, hrx, _⟩ := hT
  exact Sparse.get_put_self _ _ _ _ (Sparse.rising_of_wf hrx)

theorem State.tx_setTx_self {s : State} (hT : s.TablesOk) (q : Nat) (t : TxSide) : (s.setTx q t).tx q = t := by
  obtain ⟨_, _, _, _, _, htx, _⟩ := hT
  exact Sparse.get_put_self _ _ _ _ (Sparse.rising_of_wf htx)

theorem State.tx_setTx_ne (s : State) {q j : Nat} (t : TxSide) (hj : j ≠ q) : (s.setTx q t).tx j = s.tx j :=
  Sparse.get_put_ne _ _ _ hj

theorem State.resizePort_of_same {s : State} {z : BitVec 8} {q : Nat}
    (h : z.getLsbD (q / 4) = s.clp.sizing.getLsbD (q / 4)) : s.resizePort z q = s := if_pos h

/-- A port whose group changes hunts and waits in FILL. -/
theorem State.resizePort_of_changed {s : State} (hT : s.TablesOk) {z : BitVec 8} {q : Nat}
    (h : z.getLsbD (q / 4) ≠ s.clp.sizing.getLsbD (q / 4)) :
    ((s.resizePort z q).rx q).align = .hunt ∧ ((s.resizePort z q).rx q).confirm = 0 ∧
    ((s.resizePort z q).rx q).miss = 0 ∧ ((s.resizePort z q).tx q).data = false := by
  unfold State.resizePort
  rw [if_neg h]
  dsimp only
  generalize hr : (if (Machine.portSize z q).isSome = true then (s.rx q).hunting
    else { (s.rx q).hunting with los := false, quiet := 0 } : RxSide) = r
  have hhunt : r.align = .hunt ∧ r.confirm = 0 ∧ r.miss = 0 := by
    subst hr
    split <;> exact ⟨rfl, rfl, rfl⟩
  generalize ht : ({ (s.tx q).handFill with fillPos := 2 + 90 * (Machine.portSize z q).getD 1 } : TxSide) = t
  have hrx : ((s.putRx q r).setTx q t).rx q = (s.putRx q r).rx q := rfl
  have htx : ((s.putRx q r).setTx q t).tx q = t :=
    Sparse.get_put_self _ _ _ _ (by obtain ⟨_, _, _, _, _, htx, _⟩ := hT; exact Sparse.rising_of_wf htx)
  rw [hrx, htx, State.rx_putRx_self hT, ← ht]
  exact ⟨hhunt.1, hhunt.2.1, hhunt.2.2, rfl⟩

theorem State.resizePort_sizing (s : State) (z : BitVec 8) (q : Nat) : (s.resizePort z q).clp.sizing = s.clp.sizing := by
  unfold State.resizePort
  split <;> rfl

theorem State.resizePort_ne (s : State) (z : BitVec 8) {q j : Nat} (hj : j ≠ q) :
    (s.resizePort z q).rx j = s.rx j ∧ (s.resizePort z q).tx j = s.tx j := by
  unfold State.resizePort
  split
  · exact ⟨rfl, rfl⟩
  · exact ⟨State.rx_putRx_ne s _ hj, State.tx_setTx_ne (s.putRx q _) _ hj⟩

/-- Resizing the ports of a list reaches the ports whose group changes, and changes nothing but client ports. -/
theorem State.foldl_resizePort {z : BitVec 8} : ∀ (l : List Nat) {s : State}, s.TablesOk →
    (∃ x, l.foldl (fun s q => s.resizePort z q) s = s.setClp x ∧ x.sizing = s.clp.sizing) ∧
    (∀ j, z.getLsbD (j / 4) = s.clp.sizing.getLsbD (j / 4) ∨ j ∉ l →
      (l.foldl (fun s q => s.resizePort z q) s).rx j = s.rx j ∧ (l.foldl (fun s q => s.resizePort z q) s).tx j = s.tx j) ∧
    (∀ j ∈ l, z.getLsbD (j / 4) ≠ s.clp.sizing.getLsbD (j / 4) →
      ((l.foldl (fun s q => s.resizePort z q) s).rx j).align = .hunt ∧
      ((l.foldl (fun s q => s.resizePort z q) s).rx j).confirm = 0 ∧
      ((l.foldl (fun s q => s.resizePort z q) s).rx j).miss = 0 ∧
      ((l.foldl (fun s q => s.resizePort z q) s).tx j).data = false)
  | [], s, _ => ⟨⟨s.clp, rfl, rfl⟩, fun _ _ => ⟨rfl, rfl⟩, by simp⟩
  | q :: l, s, hT => by
    obtain ⟨⟨x, hx, hxs⟩, hsame, hchanged⟩ := State.foldl_resizePort (z := z) l ((State.Keeps.resizePort z q s).tables hT)
    rw [State.resizePort_sizing] at hxs hsame hchanged
    obtain ⟨y, hy⟩ : ∃ y, s.resizePort z q = s.setClp y := by
      unfold State.resizePort
      split
      · exact ⟨s.clp, rfl⟩
      · exact ⟨_, rfl⟩
    simp only [List.foldl_cons]
    refine ⟨⟨x, by rw [hx, hy]; rfl, hxs⟩, fun j hj => ?_, fun j hj hne => ?_⟩
    · have hstep : (s.resizePort z q).rx j = s.rx j ∧ (s.resizePort z q).tx j = s.tx j := by
        by_cases hjq : j = q
        · subst hjq
          rw [State.resizePort_of_same (hj.resolve_right (by simp))]
          exact ⟨rfl, rfl⟩
        · exact State.resizePort_ne s z hjq
      obtain ⟨h1, h2⟩ := hsame j (hj.imp_right (mt (List.mem_cons_of_mem q)))
      exact ⟨h1.trans hstep.1, h2.trans hstep.2⟩
    · by_cases hjl : j ∈ l
      · exact hchanged j hjl hne
      · obtain rfl := (List.mem_cons.mp hj).resolve_right hjl
        obtain ⟨h1, h2⟩ := hsame j (.inr hjl)
        rw [h1, h2]
        exact State.resizePort_of_changed hT hne

theorem State.Repaths.markPort (s : State) (q : Nat) : s.Repaths (fun _ => True) (s.markPort q) := by
  unfold State.markPort
  split
  · exact .markPath trivial
  · exact .refl s

theorem State.Repaths.markPorts (s : State) (l : List Nat) :
    s.Repaths (fun _ => True) (l.foldl (fun s q => s.markPort q) s) := .foldl (fun u q _ => .markPort u q) s

/-- Settles O46. -/
theorem startSetsStation : Obligations.StartSetsStation := by
  intro s p hs hT
  obtain ⟨c, hrun, hstage, hstarted, hanswer⟩ := State.serve_of_ready hs (.start p)
  have hexec : exec (.start p) s = .next ((s.setCmd c).serveStart p) := congrArg Host.Outcome.next hrun
  rw [hexec, State.serveStart, State.setCmd_cmd, hstarted]
  refine ⟨fun h => ?_, fun h hn => ?_, fun h hn => ?_⟩
  · rw [if_pos h]
    exact congrArg Host.Outcome.next (hanswer [2])
  · rw [if_neg (by simp [h]), if_pos hn]
    exact congrArg Host.Outcome.next (hanswer [1])
  · rw [if_neg (by simp [h]), if_neg (by omega)]
    obtain ⟨⟨x, hx, _⟩, hsame, hchanged⟩ := State.foldl_resizePort (z := p.sizing) (List.range 32) (s := s.setCmd c) hT
    obtain ⟨⟨z, hz⟩, _⟩ := State.Repaths.markPorts (((s.setCmd c).sized p).stationed p) (List.range 32)
    have hptb : (((s.setCmd c).sized p).stationed p).ptb = s.ptb := by
      change (List.foldl (fun s q => State.resizePort p.sizing q s) (s.setCmd c) (List.range 32)).ptb = s.ptb
      rw [hx]
      rfl
    obtain ⟨hhandles, _⟩ := (State.Reworks.markPorts (((s.setCmd c).sized p).stationed p) (List.range 32)).handles_eq
      (hptb.symm ▸ hT.1)
    rw [← State.started_eq] at hz hhandles
    have hkept : ((s.setCmd c).started p).handles = s.handles := hhandles.trans (by simp only [State.handles, hptb])
    have hcmd : ∀ l w, ({ s.cmd with started := true } : Cmd).stage l w = ((s.setCmd c).started p).cmd.stage l w := by
      intro l w
      have hv : ((s.setCmd c).started p).cmd = { c with started := true } := by
        rw [hz]
        simp only [State.stationed, State.setPtb_cmd, State.setCmd_cmd, State.sized_cmd]
      rw [hv]
      exact congrArg (fun d : Cmd => { d with started := true }) (hstage l w).symm
    refine ⟨((s.setCmd c).started p).setCmd { s.cmd with started := true },
      congrArg Host.Outcome.next (State.answer_setCmd hcmd [0]).symm, ?_⟩
    rw [hx] at hsame hchanged
    rw [hz] at hkept ⊢
    simp only [State.stationed, State.sized, hx] at hkept ⊢
    exact ⟨rfl, rfl, rfl, rfl, rfl, rfl, fun q hq hb => hsame q (.inl hb),
      fun q hq hb => hchanged q (List.mem_range.mpr hq) hb, hkept, rfl, rfl, rfl, rfl, rfl⟩

/-! ### ADD PATH (R43 to R47) -/

/-- Marking leaves of a record all but its mark and that of its fill context. -/
theorem State.markPath_record {s : State} {h : Nat} {p : PathRec} (hp : s.path h = some p) :
    ∃ b d, (s.markPath h).path h = some { p with srcBadSeen := b,
                                                 fil := p.fil.map (fun f => { f with defectSeen := f.defectSeen || d }) } := by
  unfold State.markPath
  simp only [hp]
  split
  · exact ⟨true, true, by simp⟩
  · exact ⟨p.srcBadSeen, false, by simp [hp]⟩

theorem find_ownGroup {m : Sparse Owner} {c b : Nat} {o : Owner} : ∀ {k i : Nat}, i < k →
    Sparse.find (ownGroup m c b o k) (berthKey c (b + i)) = some o
  | 0, _, h => absurd h (Nat.not_lt_zero _)
  | k + 1, i, h => by
    by_cases hi : i = k
    · subst hi
      exact Sparse.find_insert_self _ _ _
    · have hne : berthKey c (b + i) ≠ berthKey c (b + k) := by
        unfold berthKey
        omega
      exact (Sparse.find_insert_ne _ _ hne).trans (find_ownGroup (by omega))

@[simp] theorem State.path_bindSource (s : State) (h k : Nat) (e : Option Endpoint) (g : Nat) :
    (s.bindSource h k e).path g = s.path g := by
  unfold State.bindSource
  split <;> rfl

@[simp] theorem State.path_bindSink (s : State) (h k : Nat) (e : Option Endpoint) (g : Nat) :
    (s.bindSink h k e).path g = s.path g := by
  unfold State.bindSink
  split <;> rfl

/-- What binding the source endpoint leaves. -/
theorem State.bindSource_frame (s : State) (h k : Nat) (e : Option Endpoint) :
    (s.bindSource h k e).ptb.completions = s.ptb.completions ∧ (s.bindSource h k e).ptb.txBind = s.ptb.txBind ∧
    (s.bindSource h k e).hwy = s.hwy ∧ (s.bindSource h k e).ftm = s.ftm ∧ (s.bindSource h k e).fil = s.fil ∧
    (s.bindSource h k e).pending = s.pending := by
  unfold State.bindSource
  split <;> exact ⟨rfl, rfl, rfl, rfl, rfl, rfl⟩

/-- What binding the sink endpoint leaves. -/
theorem State.bindSink_frame (s : State) (h k : Nat) (e : Option Endpoint) :
    (s.bindSink h k e).ptb.completions = s.ptb.completions ∧ (s.bindSink h k e).ptb.rxBind = s.ptb.rxBind ∧
    (s.bindSink h k e).ptb.feeds = s.ptb.feeds ∧
    (s.bindSink h k e).hwy = s.hwy ∧ (s.bindSink h k e).ftm = s.ftm ∧ (s.bindSink h k e).fil = s.fil ∧
    (s.bindSink h k e).pending = s.pending := by
  unfold State.bindSink
  split <;> exact ⟨rfl, rfl, rfl, rfl, rfl, rfl, rfl⟩

theorem State.rxPath_bindSource (s : State) (h k x : Nat) : (s.bindSource h k (some (.port x))).rxPath x = some h :=
  Sparse.find_insert_self _ _ _

theorem State.txPath_bindSink (s : State) (h k x : Nat) : (s.bindSink h k (some (.port x))).txPath x = some h :=
  Sparse.find_insert_self _ _ _

theorem State.owner_bindSink (s : State) (h k c b : Nat) {i : Nat} (hi : i < k) :
    (s.bindSink h k (some (.carrier c b))).owner c (b + i) = some { handle := h, role := .primary } := find_ownGroup hi

/-- The entry of a group lists a path that joins it. -/
theorem exists_mem_joinFeed (b k h : Nat) (l : List FeedEntry) :
    ∃ e ∈ joinFeed b k h l, e.first = b ∧ e.k = k ∧ h ∈ e.handles := by
  unfold joinFeed
  split
  · rename_i hany
    obtain ⟨e, he, heq⟩ := List.any_eq_true.mp hany
    have heq' : e.first = b ∧ e.k = k := by simpa using heq
    refine ⟨_, List.mem_map_of_mem he, ?_⟩
    rw [if_pos heq']
    exact ⟨heq'.1, heq'.2, by simp⟩
  · exact ⟨_, List.mem_append_right _ (List.mem_singleton_self _), rfl, rfl, by simp⟩

theorem State.feed_bindSource {s : State} (hf : Sparse.rising s.ptb.feeds = true) (h k c b : Nat) :
    ∃ e ∈ (s.bindSource h k (some (.carrier c b))).feed c, e.first = b ∧ e.k = k ∧ h ∈ e.handles := by
  have hfeed : (s.bindSource h k (some (.carrier c b))).feed c = joinFeed b k h (s.feed c) :=
    Sparse.get_put_self _ _ _ _ hf
  rw [hfeed]
  exact exists_mem_joinFeed b k h _

/-- The new record and its bindings. -/
theorem State.addRecord_spec {s : State} (hT : s.TablesOk) (h : Nat) (p : PathRec) :
    let u := s.addRecord h p
    (∃ b d, u.path h = some { p with place := p.placeNow, srcBadSeen := b,
                                     fil := p.fil.map (fun f => { f with defectSeen := f.defectSeen || d }) }) ∧
    sameOthers h s u ∧ (∀ x, p.source = some (.port x) → u.rxPath x = some h) ∧
    (∀ x, p.sink = some (.port x) → u.txPath x = some h) ∧
    (∀ c b, p.source = some (.carrier c b) → ∃ e ∈ u.feed c, e.first = b ∧ e.k = p.k ∧ h ∈ e.handles) ∧
    (∀ c b, p.sink = some (.carrier c b) → ∀ i, i < p.k → u.owner c (b + i) = some { handle := h, role := .primary }) ∧
    u.ptb.completions = s.ptb.completions ∧ u.hwy = s.hwy ∧ u.ftm = s.ftm ∧ u.fil = s.fil ∧ u.pending = s.pending := by
  intro u
  let s1 := s.setPath h (s.placed p)
  let s2 := s1.bindSource h p.k p.source
  let s3 := s2.bindSink h p.k p.sink
  let w := s3.setCnd (s3.cnd.addInsts (newInsts h (s.placed p)))
  have hu : u = w.markPath h := rfl
  have hpath (g : Nat) : w.path g = s1.path g :=
    (State.path_bindSink s2 h p.k p.sink g).trans (State.path_bindSource s1 h p.k p.source g)
  obtain ⟨hc1, ht1, hh1, hf1, hl1, hp1⟩ := s1.bindSource_frame h p.k p.source
  obtain ⟨hc2, hr2, hd2, hh2, hf2, hl2, hp2⟩ := s2.bindSink_frame h p.k p.sink
  have hmark := State.Repaths.markPath (H := (· = h)) (s := w) rfl
  obtain ⟨hftm, _, _, hfil, hcbl, hhwy, _, _, hpend⟩ := hmark.blocks
  obtain ⟨⟨z, hz⟩, hother⟩ := hmark
  have hrec := State.markPath_record ((hpath h).trans (State.path_setPath_self s h (s.placed p)))
  have hptb : u.ptb = { s3.ptb with paths := z } := by rw [hu, hz]; rfl
  refine ⟨hrec, fun g hg => (hother g hg).trans ((hpath g).trans (State.path_setPath_ne s _ hg)), fun x hx => ?_,
    fun x hx => ?_, fun c b hx => ?_, fun c b hx i hi => ?_, ?_, hhwy.trans (hh2.trans hh1), hftm.trans (hf2.trans hf1),
    hfil.trans (hl2.trans hl1), hpend.trans (hp2.trans hp1)⟩
  · have hbind : s2.rxPath x = some h := by
      simp only [s2, hx]
      exact s1.rxPath_bindSource h p.k x
    rw [State.rxPath, hptb]
    exact (congrArg (fun m : Sparse Nat => Sparse.find m x) hr2).trans hbind
  · rw [State.txPath, hptb]
    have hbind : s3.txPath x = some h := by
      simp only [s3, hx]
      exact s2.txPath_bindSink h p.k x
    exact hbind
  · have hfeeds : s1.ptb.feeds = s.ptb.feeds := rfl
    obtain ⟨_, _, _, hf, _⟩ := hT
    obtain ⟨e, he, hspec⟩ := State.feed_bindSource (s := s1) (hfeeds ▸ Sparse.rising_of_wf hf) h p.k c b
    refine ⟨e, ?_, hspec⟩
    rw [State.feed, hptb]
    change e ∈ Sparse.get [] s3.ptb.feeds c
    rw [hd2]
    exact (by simpa only [s2, hx] using he : e ∈ s2.feed c)
  · rw [State.owner, show u.cbl = w.cbl from hcbl]
    have hown : s3.owner c (b + i) = some { handle := h, role := .primary } := by
      simp only [s3, hx]
      exact s2.owner_bindSink h p.k c b hi
    exact hown
  · rw [hptb]
    exact hc2.trans hc1

/-- Settles O47. -/
theorem addPathCreatesRecord : Obligations.AddPathCreatesRecord := by
  intro s p hs hT
  obtain ⟨c, hrun, hstage, hstarted, hanswer⟩ := State.serve_of_ready hs (.addPath p)
  have hexec : exec (.addPath p) s = .next ((s.setCmd c).serveAdd p) := congrArg Host.Outcome.next hrun
  have href : (s.setCmd c).addRefusal p = s.addRefusal p := rfl
  rw [hexec, State.serveAdd, href]
  refine ⟨fun hr => ?_, fun r hr hrefuse => ?_, fun hr hnone => ?_⟩
  · rw [if_pos (by simp [hr])]
    exact congrArg Host.Outcome.next (hanswer [1])
  · rw [if_neg (by simp [hr]), hrefuse]
    exact congrArg Host.Outcome.next (hanswer _)
  · rw [if_neg (by simp [hr]), hnone]
    have hcmd : ((s.setCmd c).addRecord s.freeHandle (addedRecord p)).cmd = c := by
      rw [State.addRecord_eq, State.bound_cmd]
      rfl
    obtain ⟨⟨b, d, hq⟩, hother, hrx, htx, hfeed, hown, hcompl, hhwy, hftm, hfil, hpend⟩ :=
      State.addRecord_spec (s := s.setCmd c) hT s.freeHandle (addedRecord p)
    obtain ⟨hfree, hbelow⟩ := State.freeHandle_spec hT.1
    have hroom : s.freeHandle < 1024 := by
      by_contra hfull
      unfold State.addRefusal at hnone
      split_ifs at hnone
      omega
    refine ⟨((s.setCmd c).addRecord s.freeHandle (addedRecord p)).setCmd s.cmd, _, s.freeHandle,
      congrArg Host.Outcome.next (State.answer_setCmd
        (fun l w => ((congrArg (Cmd.stage l w) hcmd).trans (hstage l w)).symm) _).symm, hroom, hfree, hbelow, hq,
      hother, rfl, rfl, rfl, rfl, rfl, rfl, rfl, rfl, rfl, rfl, rfl, rfl, rfl, rfl, rfl, ?_, ?_,
      hrx, htx, hfeed, hown, hcompl, hhwy, hftm, hfil, hpend⟩
    · intro hsink
      simp [addedRecord, hsink]
    · intro hsink
      exact ⟨_, by simp [addedRecord, hsink]; rfl, rfl, rfl, rfl, rfl⟩

end Sys2Proof.Machine

/-! ## Proofs: what HWY's operations read as afterwards -/

namespace Sys2Proof.Machine

/-! ### Changes of a record leave HWY, CBL and the completion list -/

@[simp] theorem State.modPath_hwy (s : State) (h : Nat) (f : PathRec → PathRec) : (s.modPath h f).hwy = s.hwy := by
  unfold State.modPath; split <;> rfl
@[simp] theorem State.modPath_cbl (s : State) (h : Nat) (f : PathRec → PathRec) : (s.modPath h f).cbl = s.cbl := by
  unfold State.modPath; split <;> rfl
@[simp] theorem State.modPath_ftm (s : State) (h : Nat) (f : PathRec → PathRec) : (s.modPath h f).ftm = s.ftm := by
  unfold State.modPath; split <;> rfl
@[simp] theorem State.modPath_completions (s : State) (h : Nat) (f : PathRec → PathRec) :
    (s.modPath h f).ptb.completions = s.ptb.completions := by
  unfold State.modPath; split <;> rfl

@[simp] theorem State.modHw_hwy (s : State) (h : Nat) (f : SrcHw → SrcHw) : (s.modHw h f).hwy = s.hwy := s.modPath_hwy h _
@[simp] theorem State.modHw_cbl (s : State) (h : Nat) (f : SrcHw → SrcHw) : (s.modHw h f).cbl = s.cbl := s.modPath_cbl h _
@[simp] theorem State.modHw_completions (s : State) (h : Nat) (f : SrcHw → SrcHw) :
    (s.modHw h f).ptb.completions = s.ptb.completions := s.modPath_completions h _
@[simp] theorem State.modSk_hwy (s : State) (h : Nat) (f : SnkHw → SnkHw) : (s.modSk h f).hwy = s.hwy := s.modPath_hwy h _
@[simp] theorem State.modSk_cbl (s : State) (h : Nat) (f : SnkHw → SnkHw) : (s.modSk h f).cbl = s.cbl := s.modPath_cbl h _
@[simp] theorem State.modSk_completions (s : State) (h : Nat) (f : SnkHw → SnkHw) :
    (s.modSk h f).ptb.completions = s.ptb.completions := s.modPath_completions h _
@[simp] theorem State.request_hwy (s : State) (h : Nat) (a b : PState) : (s.request h a b).hwy = s.hwy := s.modPath_hwy h _
@[simp] theorem State.request_cbl (s : State) (h : Nat) (a b : PState) : (s.request h a b).cbl = s.cbl := s.modPath_cbl h _
@[simp] theorem State.request_completions (s : State) (h : Nat) (a b : PState) :
    (s.request h a b).ptb.completions = s.ptb.completions := s.modPath_completions h _

@[simp] theorem State.listed_modPath (s : State) (h : Nat) (f : PathRec → PathRec) (g : Nat) :
    (s.modPath h f).listed g = s.listed g := by simp [State.listed]

/-! ### HWY's own operations: the fields of HWY, and CBL -/

@[simp] theorem State.unsend_hwy (s : State) (f : Msg → Bool) :
    (s.unsend f).hwy = { s.hwy with sendQ := s.hwy.sendQ.filter (fun q => !f q.msg) } := rfl
@[simp] theorem State.onRun_hwy (s : State) (x k : Nat) (f : CellEntry → CellEntry) :
    (s.onRun x k f).hwy = { s.hwy with cells := mapRun s.hwy.cells x f k } := rfl
@[simp] theorem State.idleMonitors_hwy (s : State) (h : Nat) : (s.idleMonitors h).hwy =
    { s.hwy with mons := s.hwy.mons.map (fun m => if m.isFor h then .idle else m) } := rfl
theorem State.send_hwy (s : State) (m : Msg) : (s.send m).hwy =
    { s.hwy with sendQ := if s.hasRoom then s.hwy.sendQ ++ [freshMsg m] else s.hwy.sendQ } := by
  unfold State.send
  split <;> rfl

@[simp] theorem State.send_cbl (s : State) (m : Msg) : (s.send m).cbl = s.cbl := by
  unfold State.send; split <;> rfl
@[simp] theorem State.unsend_cbl (s : State) (f : Msg → Bool) : (s.unsend f).cbl = s.cbl := rfl
@[simp] theorem State.unsendClaim_cbl (s : State) (t : Nat) : (s.unsendClaim t).cbl = s.cbl := rfl
@[simp] theorem State.unsendAccept_cbl (s : State) (t : Nat) (b : Bool) : (s.unsendAccept t b).cbl = s.cbl := rfl
@[simp] theorem State.onRun_cbl (s : State) (x k : Nat) (f : CellEntry → CellEntry) : (s.onRun x k f).cbl = s.cbl := rfl
@[simp] theorem State.freeRun_cbl (s : State) (x k : Nat) : (s.freeRun x k).cbl = s.cbl := rfl
@[simp] theorem State.holdRun_cbl (s : State) (x k : Nat) : (s.holdRun x k).cbl = s.cbl := rfl
@[simp] theorem State.freeOpt_cbl (s : State) (x : Option Nat) (k : Nat) : (s.freeOpt x k).cbl = s.cbl := by
  cases x <;> rfl
@[simp] theorem State.sendRelease_cbl (s : State) (p : PathRec) (x : Nat) (r : ReleaseReason) :
    (s.sendRelease p x r).cbl = s.cbl := s.send_cbl _
@[simp] theorem State.releaseOpt_cbl (s : State) (p : PathRec) (x : Option Nat) (r : ReleaseReason) :
    (s.releaseOpt p x r).cbl = s.cbl := by
  cases x
  · rfl
  · exact s.send_cbl _
@[simp] theorem State.idleMonitors_cbl (s : State) (h : Nat) : (s.idleMonitors h).cbl = s.cbl := rfl
@[simp] theorem State.applyMap_cbl (s : State) (m : Msg) : (s.applyMap m).cbl = s.cbl := by
  unfold State.applyMap
  dsimp only
  split_ifs <;> rfl

/-- What the operations on runs and messages leave of HWY: all but its send queue, its monitors and its cell map. -/
theorem State.send_station (s : State) (m : Msg) : (s.send m).hwy.station = s.hwy.station ∧
    (s.send m).hwy.number = s.hwy.number ∧ (s.send m).hwy.cells = s.hwy.cells ∧ (s.send m).hwy.mons = s.hwy.mons := by
  rw [State.send_hwy]
  exact ⟨rfl, rfl, rfl, rfl⟩

/-- A RELEASE that is created names this station, the remote station, the tag and the run. -/
theorem State.sendRelease_eq (s : State) (p : PathRec) (x : Nat) (r : ReleaseReason) :
    s.sendRelease p x r = s.send (releaseOf s p x r) := rfl

theorem State.sendQ_send_of_room {s : State} (m : Msg) (h : s.hasRoom = true) :
    (s.send m).hwy.sendQ = s.hwy.sendQ ++ [freshMsg m] := by
  rw [State.send_hwy, if_pos h]

theorem State.sendQ_send_of_full {s : State} (m : Msg) (h : s.hasRoom = false) : (s.send m).hwy.sendQ = s.hwy.sendQ := by
  rw [State.send_hwy, if_neg (by simp [h])]

theorem State.hasRoom_congr {s t : State} (h : t.hwy.station = s.hwy.station) (h' : t.hwy.sendQ = s.hwy.sendQ) :
    t.hasRoom = s.hasRoom := by
  simp only [State.hasRoom, State.mayCreate, h, h']

theorem State.self_congr {s t : State} (h : t.hwy.number = s.hwy.number) : t.self = s.self := by
  simp only [State.self, h]

/-! ### The cell map -/

theorem State.entry_congr {s t : State} (h : t.hwy.cells = s.hwy.cells) (x : Nat) : t.entry x = s.entry x := by
  simp only [State.entry, h]

@[simp] theorem State.entry_setPath (s : State) (h : Nat) (p : PathRec) (x : Nat) : (s.setPath h p).entry x = s.entry x := rfl
@[simp] theorem State.entry_modPath (s : State) (h : Nat) (f : PathRec → PathRec) (x : Nat) :
    (s.modPath h f).entry x = s.entry x := State.entry_congr (by simp) x
@[simp] theorem State.entry_modHw (s : State) (h : Nat) (f : SrcHw → SrcHw) (x : Nat) :
    (s.modHw h f).entry x = s.entry x := State.entry_congr (by simp) x
@[simp] theorem State.entry_modSk (s : State) (h : Nat) (f : SnkHw → SnkHw) (x : Nat) :
    (s.modSk h f).entry x = s.entry x := State.entry_congr (by simp) x
@[simp] theorem State.entry_request (s : State) (h : Nat) (a b : PState) (x : Nat) :
    (s.request h a b).entry x = s.entry x := State.entry_congr (by simp) x
@[simp] theorem State.entry_post (s : State) (h : Nat) (c : Completion) (x : Nat) :
    (s.post h c).entry x = s.entry x := State.entry_congr (by simp) x
@[simp] theorem State.entry_send (s : State) (m : Msg) (x : Nat) : (s.send m).entry x = s.entry x :=
  State.entry_congr (s.send_station m).2.2.1 x
@[simp] theorem State.entry_sendRelease (s : State) (p : PathRec) (r : Nat) (w : ReleaseReason) (x : Nat) :
    (s.sendRelease p r w).entry x = s.entry x := s.entry_send _ x
@[simp] theorem State.entry_unsend (s : State) (f : Msg → Bool) (x : Nat) : (s.unsend f).entry x = s.entry x := rfl
@[simp] theorem State.entry_unsendClaim (s : State) (t x : Nat) : (s.unsendClaim t).entry x = s.entry x := rfl
@[simp] theorem State.entry_unsendAccept (s : State) (t : Nat) (b : Bool) (x : Nat) :
    (s.unsendAccept t b).entry x = s.entry x := rfl
@[simp] theorem State.entry_idleMonitors (s : State) (h x : Nat) : (s.idleMonitors h).entry x = s.entry x := rfl

theorem State.rising_cells {s : State} (hT : s.TablesOk) : Sparse.rising s.hwy.cells = true := by
  obtain ⟨_, _, _, _, _, _, _, _, hcells, _⟩ := hT
  exact Sparse.rising_of_wf hcells

/-- The own entries of a freed run are FREE; every other entry is as it was. -/
theorem State.entry_freeRun {s : State} (hs : Sparse.rising s.hwy.cells = true) {r k x : Nat} (hr : r ≤ x)
    (hk : x < r + k) (ho : (s.entry x).isOwn = true) : (s.freeRun r k).entry x = .free := by
  rw [State.freeRun, State.entry_onRun_inside _ _ _ _ _ hs ⟨hr, hk⟩, if_pos ho]

theorem State.sameOutside_onRun (s : State) (r k : Nat) (f : CellEntry → CellEntry) : sameOutside r k s (s.onRun r k f) :=
  fun x hx => s.entry_onRun_outside r k f x hx

theorem State.sameOutside_freeRun (s : State) (r k : Nat) : sameOutside r k s (s.freeRun r k) := s.sameOutside_onRun r k _

theorem sameOutside.trans {r k : Nat} {s t u : State} (h : sameOutside r k s t) (h' : sameOutside r k t u) :
    sameOutside r k s u := fun x hx => (h' x hx).trans (h x hx)

/-! ### Completions -/

theorem State.listed_congr {s t : State} (h : t.ptb.completions = s.ptb.completions) (g : Nat) :
    t.listed g = s.listed g := by
  simp only [State.listed, h]

/-- A post of a record that is not listed adds an entry and sets the completion fields. -/
theorem State.post_unlisted {s : State} {h : Nat} {p : PathRec} (hp : s.path h = some p) (hl : s.listed h = false)
    (c : Completion) : (s.post h c).ptb.completions = s.ptb.completions ++ [(h, c)] ∧
    (s.post h c).path h = some { p with lastCompletion := some c, completionPending := true } := by
  refine ⟨State.post_completions_of_unlisted hp hl c, ?_⟩
  rw [State.path_post_self hp, hl]
  rfl

end Sys2Proof.Machine

/-! ## Proofs: DELETE, ENABLE, DISABLE and the forced operations -/

namespace Sys2Proof

/-- A filter of the values keeps a listed value that passes and takes the others out. -/
theorem Sparse.find_filter {α : Type} {m : Sparse α} (hm : Sparse.rising m = true) (f : α → Bool) (k : Nat) :
    Sparse.find (m.filter (fun e => f e.2)) k = (Sparse.find m k).filter f := by
  have hrise : Sparse.rising (m.filter (fun e => f e.2)) = true := Sparse.rising_filter _ _ hm
  cases hv : Sparse.find m k with
  | none =>
    cases hw : Sparse.find (m.filter (fun e => f e.2)) k with
    | none => rfl
    | some w =>
      have hmem := (List.mem_filter.mp (Sparse.mem_of_find hw)).1
      rw [Sparse.find_of_mem hm hmem] at hv
      exact absurd hv (by simp)
  | some v =>
    by_cases hf : f v = true
    · rw [Option.filter_some_pos hf]
      exact Sparse.find_of_mem hrise (List.mem_filter.mpr ⟨Sparse.mem_of_find hv, hf⟩)
    · rw [Option.filter_some_neg (Bool.eq_false_of_not_eq_true hf)]
      cases hw : Sparse.find (m.filter (fun e => f e.2)) k with
      | none => rfl
      | some w =>
        obtain ⟨hmem, hfw⟩ := List.mem_filter.mp (Sparse.mem_of_find hw)
        rw [Sparse.find_of_mem hm hmem, Option.some.injEq] at hv
        exact absurd (hv ▸ hfw) hf

end Sys2Proof

namespace Sys2Proof.Machine

theorem State.rising_owners {s : State} (hT : s.TablesOk) : Sparse.rising s.cbl.owners = true := by
  obtain ⟨_, _, _, _, _, _, _, howners, _⟩ := hT
  exact howners

/-- The state in which a served command answers, with the port's progress as it was before the command. -/
theorem State.answer_of_cmd {s v : State} {c : Cmd} (hstage : ∀ l w, c.stage l w = s.cmd.stage l w) (hcmd : v.cmd = c)
    (l : List Byte) : v.answer l = (v.setCmd s.cmd).answer l := by
  refine (State.answer_setCmd (fun l w => ?_) l).symm
  rw [hcmd, hstage]

theorem sameButPaths_setCmd {s v : State} {c : Cmd} (h : sameButPaths (s.setCmd c) v) : sameButPaths s (v.setCmd s.cmd) := by
  obtain ⟨hftm, hclp, hcrx, hfil, hcbl, hcnd, _, hpend⟩ := h
  exact ⟨hftm, hclp, hcrx, hfil, hcbl, hcnd, rfl, hpend⟩

/-! ### What a record that leaves the highway sends and frees (R52, R53) -/

theorem State.dropNewRun_frame (s : State) (h : Nat) (p : PathRec) (r : ReleaseReason) :
    (s.dropNewRun h p r).cbl = s.cbl ∧ (s.dropNewRun h p r).ptb = s.ptb := by
  unfold State.dropNewRun
  dsimp only
  split <;> simp

theorem State.cancelSinkMove_frame (s : State) (h : Nat) (p : PathRec) :
    (s.cancelSinkMove h p).cbl = s.cbl ∧ (s.cancelSinkMove h p).ptb.completions = s.ptb.completions := by
  unfold State.cancelSinkMove
  split
  · exact ⟨rfl, rfl⟩
  · dsimp only
    split <;> simp

/-- What a record sends and frees leaves CBL and the completion list. -/
theorem State.dropHighway_frame (s : State) (h : Nat) (p : PathRec) (r : ReleaseReason) :
    (s.dropHighway h p r).cbl = s.cbl ∧ (s.dropHighway h p r).ptb.completions = s.ptb.completions := by
  unfold State.dropHighway
  cases p.role with
  | loc => exact ⟨rfl, rfl⟩
  | source =>
    simp only [State.dropSource, State.modHw_cbl, State.modHw_completions]
    cases p.state with
    | claiming =>
      dsimp only
      split <;> simp
    | moving => simp [State.dropNewRun_frame]
    | _ => simp
  | sink =>
    simp only [State.dropSink, State.modSk_cbl, State.modSk_completions]
    cases p.state with
    | accepted =>
      dsimp only
      split <;> simp
    | receiving => simp [State.cancelSinkMove_frame]
    | moving => simp [State.cancelSinkMove_frame]
    | _ => simp

/-- The fields of a CARRYING source that is disabled or deleted (R52). -/
def SrcHw.dropped (w : SrcHw) : SrcHw :=
  { w with attempt := 0, backoff := none, refusal := none, cells := none, move := none, clean := 0, cleanRun := false }

/-- A CARRYING source releases its run. -/
theorem State.dropSource_carrying {s : State} {h : Nat} {p : PathRec} {r : Nat} (hst : p.state = .carrying)
    (hrole : p.role = .source) (hr : p.hw.cells = some r) (w : ReleaseReason) :
    s.dropSource h p w = ((s.send (releaseOf s p r w)).freeRun r p.k).modHw h SrcHw.dropped := by
  have hlive : p.live = true := by simp [PathRec.live, isLive, hrole, hst]
  simp [State.dropSource, hst, hr, hlive]
  rfl

theorem State.dropSource_carrying_unrun {s : State} {h : Nat} {p : PathRec} (hst : p.state = .carrying)
    (hrole : p.role = .source) (hr : p.hw.cells = none) (w : ReleaseReason) :
    s.dropSource h p w = s.modHw h SrcHw.dropped := by
  have hlive : p.live = true := by simp [PathRec.live, isLive, hrole, hst]
  simp [State.dropSource, hst, hr, hlive]
  rfl

/-- A run that is released: its RELEASE joins the queue where there is room, and its own entries become FREE. -/
theorem State.released_run {s : State} (hT : s.TablesOk) (m : Msg) (r k : Nat) :
    (s.hasRoom = true → ((s.send m).freeRun r k).hwy.sendQ = s.hwy.sendQ ++ [freshMsg m]) ∧
    (s.hasRoom = false → ((s.send m).freeRun r k).hwy.sendQ = s.hwy.sendQ) ∧
    (∀ x, r ≤ x → x < r + k → (s.entry x).isOwn = true → ((s.send m).freeRun r k).entry x = .free) ∧
    sameOutside r k s ((s.send m).freeRun r k) := by
  have hcells := (s.send_station m).2.2.1
  refine ⟨fun h => State.sendQ_send_of_room m h, fun h => State.sendQ_send_of_full m h, fun x hr hk ho => ?_, ?_⟩
  · exact State.entry_freeRun (hcells ▸ State.rising_cells hT) hr hk (by rw [State.entry_send]; exact ho)
  · exact fun x hx => (State.sameOutside_freeRun _ r k x hx).trans (State.entry_send s m x)


/-! ### DELETE PATH (R54) -/

/-- What unbinding the endpoints of a path leaves. -/
theorem State.unbind_frame (s : State) (h : Nat) (p : PathRec) :
    (s.unbind h p).ptb.paths = s.ptb.paths ∧ (s.unbind h p).ptb.completions = s.ptb.completions ∧
    (s.unbind h p).cbl = s.cbl ∧ (s.unbind h p).hwy = s.hwy ∧ (s.unbind h p).ftm = s.ftm ∧
    (s.unbind h p).fil = s.fil ∧ (s.unbind h p).pending = s.pending ∧ (s.unbind h p).cnd.queue = s.cnd.queue ∧
    (s.unbind h p).cnd.settings = s.cnd.settings := by
  unfold State.unbind
  dsimp only
  split <;> split <;> exact ⟨rfl, rfl, rfl, rfl, rfl, rfl, rfl, rfl, rfl⟩

/-- A deleted path no longer has its ports. -/
theorem State.unbind_ports {s : State} (hT : s.TablesOk) (h : Nat) (p : PathRec) :
    (∀ x, p.source = some (.port x) → (s.unbind h p).rxPath x = none) ∧
    (∀ x, p.sink = some (.port x) → (s.unbind h p).txPath x = none) := by
  obtain ⟨_, hrx, htx, _⟩ := hT
  unfold State.unbind
  refine ⟨fun x hx => ?_, fun x hx => ?_⟩
  · simp only [hx]
    split <;> exact Sparse.find_erase_self _ _ hrx
  · simp only [hx]
    split <;> exact Sparse.find_erase_self _ _ htx

theorem notMem_leaveFeed (h : Nat) (l : List FeedEntry) : ∀ e ∈ leaveFeed h l, h ∉ e.handles := by
  intro e he
  obtain ⟨hmap, _⟩ := List.mem_filter.mp he
  obtain ⟨e', _, rfl⟩ := List.mem_map.mp hmap
  simp

/-- A deleted path is listed by no entry of the feed list that had it. -/
theorem State.unbind_feed {s : State} (hT : s.TablesOk) {h : Nat} {p : PathRec} {c b : Nat}
    (hsrc : p.source = some (.carrier c b)) : ∀ e ∈ (s.unbind h p).feed c, h ∉ e.handles := by
  obtain ⟨_, _, _, hf, _⟩ := hT
  have hfeed : (s.unbind h p).feed c = leaveFeed h (s.feed c) := by
    unfold State.unbind
    simp only [hsrc]
    split <;> exact Sparse.get_put_self _ _ _ _ (Sparse.rising_of_wf hf)
  rw [hfeed]
  exact notMem_leaveFeed h _

/-- No berth of a deleted path has an owner, and every other berth keeps its own. -/
theorem Cbl.owner_forget {c : Cbl} (hc : Sparse.rising c.owners = true) (h k : Nat) :
    Sparse.find (c.forget h).owners k = (Sparse.find c.owners k).filter (fun o => !(o.handle == h)) :=
  Sparse.find_filter hc (fun o => !(o.handle == h)) k

/-- What DELETE leaves of a state with canonical tables, once what the record sends and frees is `d`. -/
theorem State.delete_spec {s : State} (hT : s.TablesOk) (h : Nat) (p : PathRec) :
    (s.delete h p).path h = none ∧ sameOthers h s (s.delete h p) ∧
    (s.delete h p).ptb.completions = s.ptb.completions.filter (fun e => !(e.1 == h)) ∧
    (∀ c b, (s.delete h p).owner c b = (s.owner c b).filter (fun o => !(o.handle == h))) ∧
    (∀ e ∈ (s.delete h p).cnd.insts, e.2.obj ≠ .path h) ∧
    (∀ x, p.source = some (.port x) → (s.delete h p).rxPath x = none) ∧
    (∀ x, p.sink = some (.port x) → (s.delete h p).txPath x = none) ∧
    (∀ c b, p.source = some (.carrier c b) → ∀ e ∈ (s.delete h p).feed c, h ∉ e.handles) ∧
    (s.delete h p).hwy = (s.dropHighway h p .deleted).hwy ∧ (s.delete h p).ftm = s.ftm ∧ (s.delete h p).fil = s.fil ∧
    (s.delete h p).cnd.queue = s.cnd.queue ∧ (s.delete h p).cnd.settings = s.cnd.settings ∧
    (s.delete h p).pending = s.pending := by
  have hr := State.Reworks.dropHighway (H := (· = h)) (s := s) (h := h) rfl p .deleted
  obtain ⟨hcbl, hcompl⟩ := s.dropHighway_frame h p .deleted
  obtain ⟨hftm, _, _, hfil, hcnd, _, hpend⟩ := hr.sameBlocks.blocks
  have hother := hr.sameOthers
  have hTd := hr.keeps.tables hT
  unfold State.delete
  generalize s.dropHighway h p .deleted = d at *
  have hTf : (d.setCbl (d.cbl.forget h)).TablesOk := (State.Keeps.forget d h).tables hTd
  obtain ⟨hpaths, hcompl', hcbl', hhwy', hftm', hfil', hpend', hqueue', hset'⟩ :=
    (d.setCbl (d.cbl.forget h)).unbind_frame h p
  obtain ⟨hrx, htx⟩ := State.unbind_ports hTf h p
  refine ⟨?_, fun g hg => ?_, ?_, fun c b => ?_, ?_, hrx, htx, fun c b hsrc => State.unbind_feed hTf hsrc, hhwy',
    hftm'.trans hftm, hfil'.trans hfil, hqueue'.trans (congrArg Cnd.queue hcnd),
    hset'.trans (congrArg Cnd.settings hcnd), hpend'.trans hpend⟩
  · exact Sparse.find_erase_self _ _ (by rw [State.setCnd_ptb, hpaths]; exact hTd.1)
  · refine (Sparse.find_erase_ne _ hg).trans ?_
    rw [State.setCnd_ptb, hpaths]
    exact hother g hg
  · simp only [State.setPtb_ptb, State.setCnd_ptb, hcompl', State.setCbl_ptb, hcompl]
  · simp only [State.owner, State.setPtb_cbl, State.setCnd_cbl, hcbl', State.setCbl_cbl]
    rw [Cbl.owner_forget (hcbl ▸ State.rising_owners hT), hcbl]
  · intro e he
    simpa using (List.mem_filter.mp he).2

/-- Settles O48. -/
theorem deletePathRemovesRecord : Obligations.DeletePathRemovesRecord := by
  intro s h hs hT
  obtain ⟨c, hrun, hstage, _, hanswer⟩ := State.serve_of_ready hs (.deletePath h)
  have hexec : exec (.deletePath h) s = .next ((s.setCmd c).serveDelete h) := congrArg Host.Outcome.next hrun
  rw [hexec, State.serveDelete]
  refine ⟨fun hbad => ?_, fun p hp hh => ?_⟩
  · refine congrArg Host.Outcome.next (Eq.trans ?_ (hanswer [1]))
    unfold State.withHandle
    split
    · rfl
    · rename_i hrange
      rw [if_neg (by simp)]
      have hnone : (s.setCmd c).path h = none := hbad.resolve_right hrange
      simp only [hnone]
      rfl
  · have hpc : (s.setCmd c).path h = some p := hp
    rw [State.withHandle_of_path hh (by simp) hpc]
    have hcmd : ((s.setCmd c).delete h p).cmd = c := by rw [State.delete_cmd]; rfl
    obtain ⟨hnone, hother, hcompl, howner, hinst, hrx, htx, hfeed, hhwy, hftm, hfil, hqueue, hset, hpend⟩ :=
      State.delete_spec (s := s.setCmd c) hT h p
    refine ⟨((s.setCmd c).delete h p).setCmd s.cmd, congrArg Host.Outcome.next (State.answer_of_cmd hstage hcmd _),
      hnone, hother, hcompl, fun c' b o ho => ?_, fun c' b o ho hne => ?_, hinst, hrx, htx, hfeed, fun hloc => ?_,
      fun r hrole hst hr => ?_, hftm, hfil, hqueue, hset, hpend⟩
    · obtain ⟨hfind, hne⟩ := Option.filter_eq_some_iff.mp ((howner c' b).symm.trans ho)
      exact ⟨by simpa using hne, hfind⟩
    · exact (howner c' b).trans (Option.filter_eq_some_iff.mpr ⟨ho, by simpa using hne⟩)
    · refine hhwy.trans ?_
      simp only [State.dropHighway, hloc]
      rfl
    · have hdrop : ((s.setCmd c).delete h p).hwy =
          (((s.setCmd c).send (releaseOf s p r .deleted)).freeRun r p.k).hwy := by
        rw [hhwy]
        simp only [State.dropHighway, hrole]
        rw [State.dropSource_carrying hst hrole hr, State.modHw_hwy]
        rfl
      obtain ⟨hroom, _, hfree, _⟩ := State.released_run (s := s.setCmd c) hT (releaseOf s p r .deleted) r p.k
      exact ⟨fun h => (congrArg Hwy.sendQ hdrop).trans (hroom h),
        fun x hx hk ho => (State.entry_congr (congrArg Hwy.cells hdrop) x).trans (hfree x hx hk ho)⟩

/-! ### ENABLE PATH and DISABLE PATH (R48 to R53) -/

/-- DISABLE of a CARRYING record with no forced operation and no move: the record releases its run and is DEFINED. -/
theorem State.disable_carrying {s : State} {h : Nat} {p : PathRec} {f : Fil} (hp : s.path h = some p)
    (hf : p.fil = some f) (hforced : f.forced = none) (hb : p.bmove = none) (hm : p.hw.move = none) :
    s.disable h p = (s.dropHighway h p .disabled).modPath h (fun q => { q with state := .defined, enablePending := false }) := by
  have hend : s.endForcedOp h p = s := by simp [State.endForcedOp, hf, hforced]
  have hfail : s.failBerthMove h .disabled = s := by simp [State.failBerthMove, hp, hb]
  have hmove : s.endMove h p = s := by simp [State.endMove, hfail, hm]
  rw [State.disable, hend, hmove]

theorem State.dropHighway_of_loc {s : State} {h : Nat} {p : PathRec} (hr : p.role = .loc) (r : ReleaseReason) :
    s.dropHighway h p r = s := by simp only [State.dropHighway, hr]

theorem State.dropHighway_of_source {s : State} {h : Nat} {p : PathRec} (hr : p.role = .source) (r : ReleaseReason) :
    s.dropHighway h p r = s.dropSource h p r := by simp only [State.dropHighway, hr]

theorem PathRec.role_cases (p : PathRec) : p.role = .loc ∨ p.role = .source ∨ p.role = .sink := by
  cases p.role <;> simp

/-- The record of a CARRYING path that leaves the highway changes in its highway fields alone. -/
theorem State.path_dropHighway_carrying {s : State} {h : Nat} {p : PathRec} (hp : s.path h = some p)
    (hst : p.state = .carrying) (w : ReleaseReason) :
    ∃ x y, (s.dropHighway h p w).path h = some { p with hw := x, sk := y } ∧ (p.role = .source → x = p.hw.dropped) := by
  rcases p.role_cases with hrole | hrole | hrole
  · exact ⟨p.hw, p.sk, by rw [State.dropHighway_of_loc hrole, hp], by simp [hrole]⟩
  · refine ⟨p.hw.dropped, p.sk, ?_, fun _ => rfl⟩
    rw [State.dropHighway_of_source hrole]
    cases hr : p.hw.cells with
    | none => simp [State.dropSource_carrying_unrun hst hrole hr, State.path_modHw_self, hp]
    | some r => simp [State.dropSource_carrying hst hrole hr, State.path_modHw_self, hp]
  · refine ⟨p.hw, { p.sk with cells := none, check := 0, watch := none }, ?_, by simp [hrole]⟩
    simp only [State.dropHighway, hrole, State.dropSink, hst, State.path_modSk_self, hp, Option.map_some]

/-- Settles O49. -/
theorem enableAndDisablePath : Obligations.EnableAndDisablePath := by
  intro s h p hs hT hh hp
  obtain ⟨c, hrun, hstage, hstarted, hanswer⟩ := State.serve_of_ready hs (.enablePath h)
  have hpc : (s.setCmd c).path h = some p := hp
  have hexec : exec (.enablePath h) s = .next ((s.setCmd c).serveEnable h) := congrArg Host.Outcome.next hrun
  have hserve (hst : s.cmd.started = true) : (s.setCmd c).serveEnable h =
      if p.remote.isSome && p.remote == s.hwy.number then (s.setCmd c).answer (refusedBy .roleMismatch)
      else ((s.setCmd c).setPath h p.enabled).answerCode .ok :=
    State.withHandle_of_path hh (fun _ => hstarted.trans hst) hpc _
  have henabled (hst : s.cmd.started = true) (hr : p.remote = none ∨ p.remote ≠ s.hwy.number) :
      exec (.enablePath h) s = .next ((s.setPath h p.enabled).answer [0]) := by
    rw [hexec, hserve hst, if_neg]
    · exact congrArg Host.Outcome.next (State.answer_setCmd (s := s.setPath h p.enabled) hstage [0])
    · rcases hr with hr | hr <;> simp [hr]
  refine ⟨fun hst => ?_, fun hst hsome heq => ?_, fun hst hr => ⟨fun hrole hstate => ?_, fun hrole hstate => ?_,
    fun hrole hstate => ?_, fun hd hb ht => ?_⟩, fun hstate => ?_, fun f hf hforced hb hm hstate => ?_⟩
  · rw [hexec, State.serveEnable, State.withHandle, if_neg (by omega), if_pos (by simp [hstarted, hst])]
    exact congrArg Host.Outcome.next (hanswer [4])
  · rw [hexec, hserve hst, if_pos (by rw [hsome, heq]; simp)]
    exact congrArg Host.Outcome.next (hanswer [3, 1])
  · rw [henabled hst hr]
    simp [PathRec.enabled, hrole, hstate]
  · exact ⟨p.enabled, henabled hst hr, by simp [PathRec.enabled, hrole, hstate]⟩
  · exact ⟨p.enabled, henabled hst hr, by simp [PathRec.enabled, hrole, hstate, SnkHw.zeroed]⟩
  · rw [henabled hst hr]
    have hsame : p.enabled = p := by
      unfold PathRec.enabled
      split <;> simp [hd, hb, ht]
    rw [hsame]
  · obtain ⟨c, hrun, hstage, _⟩ := State.serve_of_ready hs (.disablePath h)
    refine congrArg Host.Outcome.next (hrun.trans ?_)
    refine (State.withHandle_of_path (s := s.setCmd c) hh (by simp) hp _).trans ?_
    rw [if_pos hstate]
    exact State.answer_setCmd (s := s.setPath h { p with enablePending := false }) hstage [0]
  · obtain ⟨c, hrun, hstage, _⟩ := State.serve_of_ready hs (.disablePath h)
    have hpc : (s.setCmd c).path h = some p := hp
    have hre := State.Reworks.disable (H := (· = h)) rfl hpc
    have hcmd : ((s.setCmd c).disable h p).cmd = c := by
      obtain ⟨_, _, _, _, _, hcmd, _⟩ := hre.sameBlocks.blocks
      exact hcmd
    have hothers := hre.sameOthers
    have hbut (hcbl) := hre.sameButPaths hcbl
    have hserved : (s.setCmd c).serve (.disablePath h) = ((s.setCmd c).disable h p).answer [0] := by
      refine (State.withHandle_of_path (s := s.setCmd c) hh (by simp) hp _).trans ?_
      rw [if_neg (by simp [hstate])]
      rfl
    rw [State.disable_carrying hpc hf hforced hb hm] at hcmd hothers hbut hserved
    obtain ⟨hcbl, hcompl⟩ := (s.setCmd c).dropHighway_frame h p .disabled
    obtain ⟨x, y, hq, hx⟩ := State.path_dropHighway_carrying hpc hstate .disabled
    refine ⟨(((s.setCmd c).dropHighway h p .disabled).modPath h
        (fun q => { q with state := .defined, enablePending := false })).setCmd s.cmd,
      { p with state := .defined, enablePending := false, hw := x, sk := y },
      congrArg Host.Outcome.next (hrun.trans (hserved.trans (State.answer_of_cmd hstage hcmd _))),
      ?_, rfl, rfl, hf, rfl, hothers, ?_, sameButPaths_setCmd (hbut (by simpa using hcbl)), fun hloc => ?_,
      fun r hrole hr => ?_⟩
    · rw [State.path_setCmd, State.path_modPath_self, hq]
      rfl
    · simpa using hcompl
    · simp [State.dropHighway_of_loc hloc]
    · obtain ⟨hroom, _, hfree, hout⟩ := State.released_run (s := s.setCmd c) hT (releaseOf s p r .disabled) r p.k
      have hdrop : ((s.setCmd c).dropHighway h p .disabled).hwy =
          (((s.setCmd c).send (releaseOf s p r .disabled)).freeRun r p.k).hwy := by
        rw [State.dropHighway_of_source hrole, State.dropSource_carrying hstate hrole hr, State.modHw_hwy]
        rfl
      have hu : ((((s.setCmd c).dropHighway h p .disabled).modPath h
          (fun q => { q with state := .defined, enablePending := false })).setCmd s.cmd).hwy =
          (((s.setCmd c).send (releaseOf s p r .disabled)).freeRun r p.k).hwy :=
        (State.modPath_hwy _ _ _).trans hdrop
      rw [hx hrole]
      exact ⟨rfl, rfl, rfl, rfl,
        fun z hz hk ho => (State.entry_congr (congrArg Hwy.cells hu) z).trans (hfree z hz hk ho),
        fun z hz => (State.entry_congr (congrArg Hwy.cells hu) z).trans (hout z hz),
        fun h => (congrArg Hwy.sendQ hu).trans (hroom h)⟩

/-! ### MOVE PATH, RECENTRE and NUDGE (R60, R78, R80, R147, R151) -/

theorem State.anyOwner_iff (s : State) (c b k : Nat) (f : Owner → Bool) :
    s.anyOwner c b k f = true ↔ ∃ i o, i < k ∧ s.owner c (b + i) = some o ∧ f o = true := by
  simp only [State.anyOwner, List.any_eq_true, List.mem_range]
  constructor
  · rintro ⟨i, hi, h⟩
    cases ho : s.owner c (b + i) with
    | none => simp [ho] at h
    | some o => exact ⟨i, o, hi, ho, by simpa [ho] using h⟩
  · rintro ⟨i, o, hi, ho, hf⟩
    exact ⟨i, hi, by simpa [ho] using hf⟩

/-- A command that names a handle in use, with the station started, answers as its row does on the record. -/
theorem State.exec_withHandle {s : State} {h : Nat} {p : PathRec} (hs : s.ready) (hh : h ≤ 1023)
    (hp : s.path h = some p) (hst : s.cmd.started = true) {k : HostCmd} {i : Instr}
    (hi : exec i s = .next (s.hostCommand k)) {f : State → PathRec → State}
    (hk : ∀ t : State, t.serve k = t.withHandle h true (f t)) {t : State} {l : List Byte}
    (hf : ∀ c, f (s.setCmd c) p = (t.setCmd c).answer l) (ht : t.cmd = s.cmd) : exec i s = .next (t.answer l) := by
  obtain ⟨c, hrun, hstage, hstarted, _⟩ := State.serve_of_ready hs k
  rw [hi, hrun, hk, State.withHandle_of_path hh (fun _ => hstarted.trans hst) (show (s.setCmd c).path h = some p from hp),
    hf, State.answer_setCmd (by rw [ht]; exact hstage)]

/-- MOVE PATH with its parameters in range is served on the record of its handle. -/
theorem State.serve_movePath {h form c b : Nat} (hform : ¬ (1 < form ∨ (form = 0 ∧ (3 < c ∨ 431 < b)))) (t : State) :
    t.serve (.movePath h form c b) = t.withHandle h true (fun p =>
      if p.state = .moving then t.answerCode .busy
      else if form = 0 then
        match p.sink with
        | some (.carrier oldC oldB) =>
          if p.hasSink && p.live then t.serveMoveBerths h p c b oldC oldB else t.answerCode .notLive
        | _ => t.answerCode .notLive
      else if p.role = .source ∧ p.state = .carrying then (t.setPath h p.moveCells).answerCode .ok
      else t.answerCode .notLive) :=
  (if_neg (by simpa using hform) : t.serveMove h form c b = _)

theorem State.serve_nudge {h dir count : Nat} (hn : ¬ (count = 0 ∨ 1 < dir)) (t : State) :
    t.serve (.nudge h dir count) = t.serveForced h (fun _ =>
      { nudge := true, steps := 0, limit := count, dir := some (if dir = 0 then .down else .up) }) :=
  (if_neg hn : t.serveNudge h dir count = _)

/-- Form a of MOVE PATH on a live path with a carrier sink answers as CBL's checks do (R147). -/
theorem State.exec_moveBerths {s : State} {h : Nat} {p : PathRec} (hs : s.ready) (hh : h ≤ 1023)
    (hp : s.path h = some p) (hst : s.cmd.started = true) {c b c' b' : Nat} (hc : c ≤ 3) (hb : b ≤ 431)
    (hsink : p.sink = some (.carrier c' b'))
    (hlive : (p.role = .loc ∧ p.state = .carrying) ∨ (p.role = .sink ∧ p.state = .receiving)) {t : State} {l : List Byte}
    (hserve : ∀ d, (s.setCmd d).serveMoveBerths h p c b c' b' = (t.setCmd d).answer l) (ht : t.cmd = s.cmd) :
    exec (.movePath h 0 c b) s = .next (t.answer l) := by
  have hnm : p.state ≠ .moving := by rcases hlive with ⟨_, h⟩ | ⟨_, h⟩ <;> simp [h]
  have hl : (p.hasSink && p.live) = true := by
    rcases hlive with ⟨hr, h⟩ | ⟨hr, h⟩ <;> simp [PathRec.hasSink, PathRec.live, isLive, hr, h]
  refine State.exec_withHandle hs hh hp hst rfl (State.serve_movePath (by omega)) (fun d => ?_) ht
  rw [if_neg hnm, if_pos rfl]
  simp only [hsink, hl, if_true]
  exact hserve d

/-- A forced operation on a live path with a store begins where none runs (R60, R78, R80). -/
theorem State.exec_forced {s : State} {h : Nat} {p : PathRec} {f : Fil} (hs : s.ready) (hh : h ≤ 1023)
    (hp : s.path h = some p) (hst : s.cmd.started = true) (hf : p.fil = some f) (hlive : p.live = true) {i : Instr}
    {k : HostCmd} (hi : exec i s = .next (s.hostCommand k)) {op : State → PathRec → Forced}
    (hk : ∀ t : State, t.serve k = t.serveForced h (op t)) :
    (f.forced ≠ none → exec i s = .next (s.answer [2])) ∧
    (∀ g, f.forced = none → (∀ d, g = { f with forced := some (op (s.setCmd d) p) }) →
      exec i s = .next ((s.setPath h { p with fil := some g }).answer [0])) := by
  refine ⟨fun hbusy => State.exec_withHandle (t := s) hs hh hp hst hi hk (fun d => ?_) rfl, fun g hidle hg =>
    State.exec_withHandle (t := s.setPath h { p with fil := some g }) hs hh hp hst hi hk (fun d => ?_) rfl⟩
  · simp only [hf, hlive, Bool.not_true, Bool.false_eq_true, if_false]
    rw [if_pos (Option.isSome_iff_ne_none.mpr hbusy)]
    rfl
  · simp only [hf, hlive, Bool.not_true, Bool.false_eq_true, if_false]
    rw [hidle, hg d, if_neg (by simp)]
    rfl

/-- Settles O50. -/
theorem moveAndForcedCommands : Obligations.MoveAndForcedCommands := by
  intro s h p hs hh hp hst
  refine ⟨fun form c b hbad => ?_, fun c b hc hb hmv => ?_, fun c b hrole hcar => ?_, fun c b c' b' hc hb hsink hlive =>
    ⟨fun halign => ?_, fun ha hfit hbusy => ?_, fun ha hfit hown hfree m hm => ?_⟩, fun hlive => ?_,
    fun f hf hlive => ?_⟩
  · obtain ⟨d, hrun, _, _, hanswer⟩ := State.serve_of_ready hs (.movePath h form c b)
    refine congrArg Host.Outcome.next (hrun.trans (Eq.trans ?_ (hanswer [1])))
    exact (if_pos (by simpa using hbad) : (s.setCmd d).serveMove h form c b = _)
  · exact ⟨State.exec_withHandle (t := s) hs hh hp hst rfl (State.serve_movePath (by omega)) (fun _ => if_pos hmv) rfl,
      State.exec_withHandle (t := s) hs hh hp hst rfl (State.serve_movePath (by omega)) (fun _ => if_pos hmv) rfl⟩
  · refine ⟨p.moveCells, State.exec_withHandle (t := s.setPath h p.moveCells) hs hh hp hst rfl
      (State.serve_movePath (by omega)) (fun _ => ?_) rfl, rfl, rfl, rfl, rfl⟩
    rw [if_neg (by simp [hcar]), if_neg (by simp), if_pos ⟨hrole, hcar⟩]
    rfl
  · refine State.exec_moveBerths (t := s) hs hh hp hst hc hb hsink hlive (fun d => ?_) rfl
    rw [State.serveMoveBerths, if_pos (by simpa [or_iff_not_imp_left] using halign)]
    rfl
  · refine State.exec_moveBerths (t := s) hs hh hp hst hc hb hsink hlive (fun d => ?_) rfl
    rw [State.serveMoveBerths, if_neg (by simp [ha, hfit]), if_pos]
    · rfl
    · rcases hbusy with hsame | ⟨i, o, hi, ho, hne⟩
      · simp [hsame]
      · rw [Bool.or_eq_true]
        exact .inl ((State.anyOwner_iff _ _ _ _ _).mpr ⟨i, o, hi, ho, by simpa using hne⟩)
  · refine State.exec_moveBerths (t := s.setPath h { p with state := .moving, bmove := some m }) hs hh hp hst hc hb
      hsink hlive (fun d => ?_) rfl
    rw [State.serveMoveBerths, if_neg (by simp [ha, hfit]), if_neg, hm]
    · rfl
    · rw [Bool.or_eq_true, not_or]
      refine ⟨fun hany => ?_, by simpa using hown⟩
      obtain ⟨i, o, hi, ho, hne⟩ := (State.anyOwner_iff _ _ _ _ _).mp hany
      exact absurd (hfree i hi o ho) (by simpa using hne)
  · refine State.exec_withHandle (t := s) (k := .recentre h) hs hh hp hst rfl (fun _ => rfl) (fun d => ?_) rfl
    dsimp only
    split
    · rfl
    · rw [if_pos (by simp [hlive])]
      rfl
  · obtain ⟨hbusy, hidle⟩ := State.exec_forced (i := .recentre h) (k := .recentre h) hs hh hp hst hf hlive
      rfl (fun _ => rfl)
    refine ⟨hbusy, fun hn g hg => hidle g hn fun _ => hg, fun dir count hbad => ?_, fun dir count hc hd => ?_,
      fun dir count hc hd hn g o ho hg => ?_⟩
    · obtain ⟨d, hrun, _, _, hanswer⟩ := State.serve_of_ready hs (.nudge h dir count)
      refine congrArg Host.Outcome.next (hrun.trans (Eq.trans ?_ (hanswer [1])))
      exact (if_pos hbad : (s.setCmd d).serveNudge h dir count = _)
    · exact (State.exec_forced hs hh hp hst hf hlive rfl (State.serve_nudge (by omega))).1
    · exact (State.exec_forced hs hh hp hst hf hlive rfl (State.serve_nudge (by omega))).2 g hn fun _ => by rw [hg, ho]


/-! ### READ PATH, READ CELLS and READ STATION (R187, R188) -/

theorem endpointOut_length (e : Option Endpoint) : (endpointOut e).length = 4 := by
  cases e with
  | none => rfl
  | some e => cases e <;> rfl

theorem opt1_length (o : Option Nat) : (opt1 o).length = 1 := by cases o <;> rfl

theorem optLabel_length {o : Option Label} (h : ∀ l, o = some l → l.length = 8) : (optLabel o).length = 8 := by
  cases o with
  | none => rfl
  | some l => simp [optLabel, labelBytes, h l rfl]

theorem fieldIf_length (b : Bool) (x : Byte) : (fieldIf b 1 [x]).length = 1 := by cases b <;> rfl

/-- The record's section has 34 bytes where its labels have eight characters (R191). -/
theorem State.recordOut_length {s : State} {p : PathRec} (h : Nat) (hl : ∀ l, p.label = some l → l.length = 8)
    (hc : ∀ l, s.confirmed p = some l → l.length = 8) : (s.recordOut h p).length = 34 := by
  simp [State.recordOut, be2, endpointOut_length, opt1_length, optLabel_length hl, optLabel_length hc, fieldIf_length]

/-- Returning the control-error counts of some carriers to 0 changes nothing else. -/
theorem State.foldl_clear : ∀ (l : List Nat) {s : State}, Sparse.rising s.crx.carriers = true → l.Nodup →
    ∃ x, l.foldl (fun s c => s.setCarrier c { s.carrier c with ctlErr := 0 }) s = s.setCrx x ∧ x.scan = s.crx.scan ∧
      (∀ c ∈ l, (s.setCrx x).carrier c = { s.carrier c with ctlErr := 0 }) ∧
      ∀ c, c ∉ l → (s.setCrx x).carrier c = s.carrier c
  | [], s, _, _ => ⟨s.crx, rfl, rfl, by simp, fun _ _ => rfl⟩
  | a :: l, s, hs, hl => by
    obtain ⟨ha, hl⟩ := List.nodup_cons.mp hl
    obtain ⟨x, hx, hscan, hin, hout⟩ := State.foldl_clear l (s := s.setCarrier a { s.carrier a with ctlErr := 0 })
      (Sparse.rising_put _ _ _ _ hs) hl
    have hself : (s.setCarrier a { s.carrier a with ctlErr := 0 }).carrier a = { s.carrier a with ctlErr := 0 } :=
      Sparse.get_put_self _ _ _ _ hs
    have hne (c : Nat) (hc : c ≠ a) : (s.setCarrier a { s.carrier a with ctlErr := 0 }).carrier c = s.carrier c :=
      Sparse.get_put_ne _ _ _ hc
    refine ⟨x, hx, hscan, fun c hc => ?_, fun c hc => ?_⟩
    · rcases List.mem_cons.mp hc with rfl | hc
      · exact (hout c ha).trans hself
      · exact (hin c hc).trans (by rw [hne c (fun h => ha (h ▸ hc))])
    · obtain ⟨hca, hcl⟩ := not_or.mp (mt List.mem_cons.mpr hc)
      exact (hout c hcl).trans (hne c hca)

/-- Settles O51. -/
theorem readCommands : Obligations.ReadCommands := by
  intro s hs
  refine ⟨fun h hbad => ?_, fun h p hh hp => ⟨?_, fun hl hc => ?_⟩, fun x n hbad => ?_, fun x n h0 h16 hx => ?_,
    fun hT => ?_⟩
  · obtain ⟨c, hrun, _, _, hanswer⟩ := State.serve_of_ready hs (.readPath h)
    refine congrArg Host.Outcome.next (hrun.trans (Eq.trans ?_ (hanswer [1])))
    change (s.setCmd c).serveReadPath h = _
    unfold State.serveReadPath State.withHandle
    split
    · rfl
    · rename_i hrange
      have hnone : (s.setCmd c).path h = none := hbad.resolve_left hrange
      simp only [Bool.false_and, Bool.false_eq_true, if_false, hnone]
      rfl
  · obtain ⟨c, hrun, _, _, hanswer⟩ := State.serve_of_ready hs (.readPath h)
    refine congrArg Host.Outcome.next (hrun.trans (Eq.trans ?_ (hanswer (s.pathOut h p))))
    exact State.withHandle_of_path (s := s.setCmd c) hh (by simp) hp _
  · have hlen := State.recordOut_length h hl hc
    simp only [State.pathOut, sectionOut, hlen]
    simp only [State.recordOut, List.append_assoc]
    exact ⟨_, rfl⟩
  · obtain ⟨c, hrun, _, _, hanswer⟩ := State.serve_of_ready hs (.readCells x n)
    refine congrArg Host.Outcome.next (hrun.trans (Eq.trans ?_ (hanswer [1])))
    exact (if_pos hbad : (s.setCmd c).serveReadCells x n = _)
  · obtain ⟨c, hrun, _, _, hanswer⟩ := State.serve_of_ready hs (.readCells x n)
    refine congrArg Host.Outcome.next (hrun.trans (Eq.trans ?_ (hanswer _)))
    exact (if_neg (by omega) : (s.setCmd c).serveReadCells x n = _)
  · obtain ⟨c, hrun, hstage, hstarted, _⟩ := State.serve_of_ready hs .readStation
    obtain ⟨_, _, _, _, _, _, hcar, _⟩ := hT
    obtain ⟨x, hx, hscan, hin, _⟩ := State.foldl_clear (List.range 4)
      (s := (s.setCmd c).setHwy { s.hwy with msgCheck := 0 }) (Sparse.rising_of_wf hcar) List.nodup_range
    have hserve : (s.setCmd c).serve .readStation = (s.setCmd c).clearCounts.answer (s.setCmd c).stationOut := rfl
    have hout : (s.setCmd c).stationOut = s.stationOut := by
      unfold State.stationOut
      rw [show (s.setCmd c).cmd.started = s.cmd.started from hstarted]
      rfl
    have hclear : (s.setCmd c).clearCounts = ((s.setCmd c).setHwy { s.hwy with msgCheck := 0 }).setCrx x := hx
    refine ⟨(s.setHwy { s.hwy with msgCheck := 0 }).setCrx x, ?_, rfl,
      fun c hc => hin c (List.mem_range.mpr hc), hscan, rfl, rfl, rfl, rfl, rfl, rfl, rfl, rfl⟩
    refine congrArg Host.Outcome.next (hrun.trans ?_)
    rw [hserve, hout, hclear]
    exact State.answer_setCmd (s := (s.setHwy { s.hwy with msgCheck := 0 }).setCrx x) hstage _

end Sys2Proof.Machine

/-! ## Proofs: the words of the highway, the cell choice and the condition queue -/

namespace Sys2Proof.Machine

/-! ### Messages and headers (R109, R113, R190) -/

theorem sizeOfCode_sizeCode {k : Nat} (h : k = 1 ∨ k = 4 ∨ k = 16) : sizeOfCode (sizeCode k) = some k := by
  rcases h with rfl | rfl | rfl <;> rfl

theorem sizeCode_of_sizeOfCode {c : BitVec 2} {k : Nat} (h : sizeOfCode c = some k) : sizeCode k = c := by
  unfold sizeOfCode at h
  split_ifs at h with h0 h1 h2 <;> obtain rfl := Option.some.inj h
  · exact h0.symm
  · exact h1.symm
  · exact h2.symm

theorem refuseReasonOf_code (r : RefuseReason) : refuseReasonOf r.code = some r := by cases r <;> rfl

theorem releaseReasonOf_code (r : ReleaseReason) : releaseReasonOf r.code = some r := by cases r <;> rfl

theorem code_of_refuseReasonOf {n : Nat} {r : RefuseReason} (h : refuseReasonOf n = some r) : r.code = n := by
  unfold refuseReasonOf at h
  split at h <;> cases h <;> rfl

theorem code_of_releaseReasonOf {n : Nat} {r : ReleaseReason} (h : releaseReasonOf n = some r) : r.code = n := by
  unfold releaseReasonOf at h
  split at h <;> cases h <;> rfl

theorem codeOfHeader_headerCode (c : Code) : codeOfHeader c.headerCode = some c := by cases c <;> rfl

theorem headerCode_of_codeOfHeader {n : Nat} {c : Code} (h : codeOfHeader n = some c) : c.headerCode = n := by
  unfold codeOfHeader at h
  split at h <;> cases h <;> rfl

/-- The parts of a message's word stand at their places (R190). -/
theorem message_parts (k : BitVec 3) (s a : BitVec 4) (t : BitVec 16) (f : BitVec 10) (z : BitVec 2) (v : BitVec 1)
    (r : BitVec 3) (c : BitVec 8) :
    let w := k ++ s ++ a ++ t ++ f ++ z ++ v ++ r ++ c
    w.extractLsb' 48 3 = k ∧ w.extractLsb' 44 4 = s ∧ w.extractLsb' 40 4 = a ∧ w.extractLsb' 24 16 = t ∧
    w.extractLsb' 14 10 = f ∧ w.extractLsb' 12 2 = z ∧ w.extractLsb' 11 1 = v ∧ w.extractLsb' 8 3 = r := by
  intro w
  refine ⟨?_, ?_, ?_, ?_, ?_, ?_, ?_, ?_⟩ <;>
    simp (disch := decide) only [w, BitVec.extractLsb'_append_eq_of_le,
      BitVec.extractLsb'_append_eq_of_add_le, -Nat.reduceAdd] <;>
    exact BitVec.extractLsb'_eq_self

/-- The parts of a word, one behind another, are the bits under its check. -/
theorem join_message_parts (w : BitVec 51) :
    w.extractLsb' 48 3 ++ w.extractLsb' 44 4 ++ w.extractLsb' 40 4 ++ w.extractLsb' 24 16 ++ w.extractLsb' 14 10 ++
      w.extractLsb' 12 2 ++ w.extractLsb' 11 1 ++ w.extractLsb' 8 3 = w.extractLsb' 8 43 := by
  simp (disch := decide) only [BitVec.extractLsb'_append_extractLsb'_eq_extractLsb', -Nat.reduceAdd]

theorem header_parts (s : BitVec 4) (t : BitVec 16) (i : BitVec 4) (k : BitVec 3) (l : BitVec 7) (c : BitVec 8) :
    let w := s ++ t ++ i ++ k ++ l ++ c
    w.extractLsb' 38 4 = s ∧ w.extractLsb' 22 16 = t ∧ w.extractLsb' 18 4 = i ∧ w.extractLsb' 15 3 = k ∧
    w.extractLsb' 8 7 = l := by
  intro w
  refine ⟨?_, ?_, ?_, ?_, ?_⟩ <;>
    simp (disch := decide) only [w, BitVec.extractLsb'_append_eq_of_le,
      BitVec.extractLsb'_append_eq_of_add_le, -Nat.reduceAdd] <;>
    exact BitVec.extractLsb'_eq_self

theorem join_header_parts (w : BitVec 42) :
    w.extractLsb' 38 4 ++ w.extractLsb' 22 16 ++ w.extractLsb' 18 4 ++ w.extractLsb' 15 3 ++ w.extractLsb' 8 7 =
      w.extractLsb' 8 34 := by
  simp (disch := decide) only [BitVec.extractLsb'_append_extractLsb'_eq_extractLsb', -Nat.reduceAdd]

theorem ofBool_getLsbD_eq_extractLsb' {n : Nat} (w : BitVec n) (i : Nat) :
    BitVec.ofBool (w.getLsbD i) = w.extractLsb' i 1 := by
  ext j hj
  simp [show j = 0 by omega]

theorem getLsbD_eq_of_extractLsb' {n : Nat} {w : BitVec n} {i : Nat} {b : Bool}
    (h : w.extractLsb' i 1 = BitVec.ofBool b) : w.getLsbD i = b :=
  BitVec.ofBool_eq_iff_eq.mp ((ofBool_getLsbD_eq_extractLsb' w i).trans h)

/-- A message that passes R110 has fields that fit their places in the word. -/
theorem Msg.passes_iff (m : Msg) : m.passes = true ↔
    m.body.sender < 16 ∧ m.body.addressee < 16 ∧ m.body.sender ≠ m.body.addressee ∧ 0 < m.body.tag ∧
    m.body.tag < 65536 ∧ m.body.first < 1024 ∧ (m.body.size = 1 ∨ m.body.size = 4 ∨ m.body.size = 16) ∧
    m.body.first % m.body.size = 0 ∧ ¬ (m.body.move = true ∧ m.kindCode = 1) := by
  simp only [Msg.passes, Bool.and_eq_true, decide_eq_true_eq, bne_iff_ne, Bool.or_eq_true, beq_iff_eq,
    Bool.not_eq_true', Bool.and_eq_false_iff, beq_eq_false_iff_ne, not_and, and_assoc, or_assoc]
  simp only [← Bool.not_eq_true, imp_iff_not_or, ne_eq]

/-- What a word is as a message, once its check passes and its parts are known. -/
theorem decodeMsg_of_parts {w : BitVec 51} {m : Msg} (hm : m.passes = true)
    (hcheck : w.extractLsb' 0 8 = crc8 (w.extractLsb' 8 43)) (hk : w.extractLsb' 48 3 = BitVec.ofNat 3 m.kindCode)
    (hs : w.extractLsb' 44 4 = BitVec.ofNat 4 m.body.sender) (ha : w.extractLsb' 40 4 = BitVec.ofNat 4 m.body.addressee)
    (ht : w.extractLsb' 24 16 = BitVec.ofNat 16 m.body.tag) (hf : w.extractLsb' 14 10 = BitVec.ofNat 10 m.body.first)
    (hz : w.extractLsb' 12 2 = sizeCode m.body.size) (hv : w.getLsbD 11 = m.body.move)
    (hr : w.extractLsb' 8 3 = BitVec.ofNat 3 m.reasonCode) : decodeMsg w = some m := by
  obtain ⟨hs16, ha16, _, _, ht16, hf10, hsize, _, _⟩ := (Msg.passes_iff m).mp hm
  have hbody : MsgBody.mk (BitVec.ofNat 4 m.body.sender).toNat (BitVec.ofNat 4 m.body.addressee).toNat
      (BitVec.ofNat 16 m.body.tag).toNat (BitVec.ofNat 10 m.body.first).toNat m.body.size m.body.move = m.body := by
    simp only [BitVec.toNat_ofNat, Nat.mod_eq_of_lt hs16, Nat.mod_eq_of_lt ha16, Nat.mod_eq_of_lt ht16,
      Nat.mod_eq_of_lt hf10]
  simp only [decodeMsg, if_pos hcheck, hz, sizeOfCode_sizeCode hsize, hs, ha, ht, hf, hv, hbody, hk, hr]
  cases m with
  | claim b => simp [Msg.kindCode, Msg.reasonCode, Msg.body, hm]
  | accept b => simp [Msg.kindCode, Msg.reasonCode, Msg.body, hm]
  | refuse b r => cases r <;> simp [Msg.kindCode, Msg.reasonCode, Msg.body, RefuseReason.code, refuseReasonOf, hm]
  | release b r => cases r <;> simp [Msg.kindCode, Msg.reasonCode, Msg.body, ReleaseReason.code, releaseReasonOf, hm]

theorem decodeMsg_encodeMsg {m : Msg} (hm : m.passes = true) : decodeMsg (encodeMsg m) = some m := by
  obtain ⟨hk, hs, ha, ht, hf, hz, hv, hr⟩ := message_parts (BitVec.ofNat 3 m.kindCode) (BitVec.ofNat 4 m.body.sender)
    (BitVec.ofNat 4 m.body.addressee) (BitVec.ofNat 16 m.body.tag) (BitVec.ofNat 10 m.body.first)
    (sizeCode m.body.size) (BitVec.ofBool m.body.move) (BitVec.ofNat 3 m.reasonCode) (crc8 m.bits)
  have hbits : (encodeMsg m).extractLsb' 8 43 = m.bits := BitVec.extractLsb'_append_eq_left
  have hcheck : (encodeMsg m).extractLsb' 0 8 = crc8 m.bits := BitVec.extractLsb'_append_eq_right
  exact decodeMsg_of_parts hm (hbits ▸ hcheck) hk hs ha ht hf hz (getLsbD_eq_of_extractLsb' hv) hr

/-- The parts of a message are those of the word it was decoded from. -/
theorem parts_of_decodeMsg {w : BitVec 51} {m : Msg} (h : decodeMsg w = some m) :
    m.passes = true ∧ w.extractLsb' 0 8 = crc8 (w.extractLsb' 8 43) ∧ m.kindCode = (w.extractLsb' 48 3).toNat ∧
    m.body.sender = (w.extractLsb' 44 4).toNat ∧ m.body.addressee = (w.extractLsb' 40 4).toNat ∧
    m.body.tag = (w.extractLsb' 24 16).toNat ∧ m.body.first = (w.extractLsb' 14 10).toNat ∧
    sizeCode m.body.size = w.extractLsb' 12 2 ∧ m.body.move = w.getLsbD 11 ∧
    m.reasonCode = (w.extractLsb' 8 3).toNat := by
  unfold decodeMsg at h
  dsimp only at h
  split at h
  case isFalse => cases h
  case isTrue hcheck =>
    split at h
    case h_1 => cases h
    case h_2 k hk =>
      obtain ⟨m', hm', hpass⟩ := Option.bind_eq_some_iff.mp h
      split at hpass
      case isFalse => cases hpass
      case isTrue hp =>
        obtain rfl := Option.some.inj hpass
        have hsize := sizeCode_of_sizeOfCode hk
        split at hm'
        case h_1 hkind =>
          obtain ⟨r, hr, rfl⟩ := Option.map_eq_some_iff.mp hm'
          exact ⟨hp, hcheck, hkind.symm, rfl, rfl, rfl, rfl, hsize, rfl, code_of_releaseReasonOf hr⟩
        case h_2 hkind =>
          obtain ⟨r, hr, rfl⟩ := Option.map_eq_some_iff.mp hm'
          exact ⟨hp, hcheck, hkind.symm, rfl, rfl, rfl, rfl, hsize, rfl, code_of_refuseReasonOf hr⟩
        case h_3 hkind =>
          obtain ⟨hr, hm'⟩ := Option.ite_none_right_eq_some.mp hm'
          obtain rfl := Option.some.inj hm'
          exact ⟨hp, hcheck, hkind.symm, rfl, rfl, rfl, rfl, hsize, rfl, hr.symm⟩
        case h_4 hkind =>
          obtain ⟨hr, hm'⟩ := Option.ite_none_right_eq_some.mp hm'
          obtain rfl := Option.some.inj hm'
          exact ⟨hp, hcheck, hkind.symm, rfl, rfl, rfl, rfl, hsize, rfl, hr.symm⟩
        case h_5 => cases hm'

theorem encodeMsg_of_decodeMsg {w : BitVec 51} {m : Msg} (h : decodeMsg w = some m) : encodeMsg m = w := by
  obtain ⟨_, hcheck, hk, hs, ha, ht, hf, hz, hv, hr⟩ := parts_of_decodeMsg h
  have hbits : m.bits = w.extractLsb' 8 43 := by
    rw [← join_message_parts w, ← ofBool_getLsbD_eq_extractLsb' w 11]
    simp only [Msg.bits, hk, hs, ha, ht, hf, hz, hv, hr, BitVec.ofNat_toNat, BitVec.setWidth_eq]
  rw [encodeMsg, hbits, ← hcheck]
  exact BitVec.extractLsb'_append_extractLsb' (w := 43) (len := 8)

theorem decodeHeader_encodeHeader {d : Header} (hs : d.station < 16) (ht : d.tag < 65536) (hi : d.index < 16) :
    decodeHeader (encodeHeader d) = some d := by
  obtain ⟨hps, hpt, hpi, hpk, hpl⟩ := header_parts (BitVec.ofNat 4 d.station) (BitVec.ofNat 16 d.tag)
    (BitVec.ofNat 4 d.index) (BitVec.ofNat 3 d.code.headerCode) d.label (crc8 d.bits)
  have hbits : (encodeHeader d).extractLsb' 8 34 = d.bits := BitVec.extractLsb'_append_eq_left
  have hcheck : (encodeHeader d).extractLsb' 0 8 = crc8 d.bits := BitVec.extractLsb'_append_eq_right
  have hstation : (encodeHeader d).extractLsb' 38 4 = BitVec.ofNat 4 d.station := hps
  have htag : (encodeHeader d).extractLsb' 22 16 = BitVec.ofNat 16 d.tag := hpt
  have hindex : (encodeHeader d).extractLsb' 18 4 = BitVec.ofNat 4 d.index := hpi
  have hcode : (encodeHeader d).extractLsb' 15 3 = BitVec.ofNat 3 d.code.headerCode := hpk
  have hlabel : (encodeHeader d).extractLsb' 8 7 = d.label := hpl
  have hlt : d.code.headerCode < 8 := by cases d.code <;> decide
  unfold decodeHeader
  dsimp only
  rw [hbits, if_pos hcheck, hstation, htag, hindex, hcode, hlabel]
  simp only [BitVec.toNat_ofNat, Nat.reducePow, Nat.mod_eq_of_lt hs, Nat.mod_eq_of_lt ht, Nat.mod_eq_of_lt hi,
    Nat.mod_eq_of_lt hlt, codeOfHeader_headerCode, Option.map_some]

theorem encodeHeader_of_decodeHeader {w : BitVec 42} {d : Header} (h : decodeHeader w = some d) :
    encodeHeader d = w ∧ d.station < 16 ∧ d.tag < 65536 ∧ d.index < 16 := by
  unfold decodeHeader at h
  dsimp only at h
  split at h
  case isFalse => cases h
  case isTrue hcheck =>
    obtain ⟨c, hc, rfl⟩ := Option.map_eq_some_iff.mp h
    refine ⟨?_, BitVec.isLt _, BitVec.isLt _, BitVec.isLt _⟩
    have hbits : (Header.mk (w.extractLsb' 38 4).toNat (w.extractLsb' 22 16).toNat (w.extractLsb' 18 4).toNat c
        (w.extractLsb' 8 7)).bits = w.extractLsb' 8 34 := by
      rw [← join_header_parts w]
      simp only [Header.bits, headerCode_of_codeOfHeader hc, BitVec.ofNat_toNat, BitVec.setWidth_eq]
    rw [encodeHeader, hbits, ← hcheck]
    exact BitVec.extractLsb'_append_extractLsb' (w := 34) (len := 8)

/-! ### The content of a run as received (R139) -/

theorem padTo_of_length {fill : Byte} {n : Nat} {l : List Byte} (h : l.length = n) : padTo fill n l = l := by
  rw [padTo, h, Nat.sub_self, List.replicate_zero, List.append_nil, ← h, List.take_length]

/-- The later cells of a run, all of them good, give the rest of its content. -/
theorem laterCells_eq {got : Sparse RxCell} {code : Code} {bytes : List Byte} (hm : code ≠ .maintenance)
    (hi : code ≠ .idle) : ∀ {n j : Nat}, bytes.length = firstBytes code + 90 * (j + n) →
    (∀ i, j < i → i ≤ j + n → ∃ c, Sparse.find got i = some c ∧ c.code = codeAt code i ∧
      c.payload = positions code bytes i) → laterCells got (j + 1) n = bytes.drop (firstBytes code + 90 * j)
  | 0, j, hlen, _ => by simp [laterCells, hlen]
  | n + 1, j, hlen, hc => by
    obtain ⟨c, hfind, hcode, hpay⟩ := hc (j + 1) (by omega) (by omega)
    have ih := laterCells_eq (got := got) hm hi (n := n) (j := j + 1) (by omega) fun i h1 h2 => hc i (by omega) (by omega)
    have hdrop : bytes.drop (firstBytes code + 90 * (j + 1)) = (bytes.drop (firstBytes code + 90 * j)).drop 90 := by
      rw [List.drop_drop]
      rfl
    have htake := take_positions_succ hm hi (bytes := bytes) (j := j) (by omega)
    have hdata : ¬ (c.code = .maintenance ∨ c.code = .idle) := by
      rw [hcode]
      cases code <;> simp_all [codeAt]
    have hpad : padTo 0xFF 90 (c.payload.take 90) = (bytes.drop (firstBytes code + 90 * j)).take 90 := by
      rw [padTo_of_length (by rw [hpay, List.length_take, positions_length]; rfl), hpay, htake]
    simp only [laterCells, hfind, ih, if_neg hdata, hpad, hdrop, List.take_append_drop]

theorem cellContent_of_good {k : Nat} {code : Code} {bytes : List Byte} {got : Sparse RxCell} (hk : 0 < k)
    (hm : code ≠ .maintenance) (hi : code ≠ .idle) (hlen : bytes.length = firstBytes code + 90 * (k - 1))
    (hc : ∀ i, i < k → ∃ c, Sparse.find got i = some c ∧ c.code = codeAt code i ∧ c.payload = positions code bytes i) :
    cellContent k got = { code := code, bytes := bytes } := by
  obtain ⟨c, hfind, hcode, hpay⟩ := hc 0 hk
  have hcode' : c.code = code := hcode
  have hlater : laterCells got 1 (k - 1) = bytes.drop (firstBytes code) :=
    laterCells_eq hm hi (n := k - 1) (j := 0) (by omega) fun i h0 hi' => hc i (by omega)
  have hfirst : padTo 0xFF (firstBytes code) (c.payload.take (firstBytes code)) = bytes.take (firstBytes code) := by
    have hle := firstBytes_le code
    rw [padTo_of_length (by rw [hpay, List.length_take, positions_length]; omega), hpay,
      take_positions_zero hm hi (by omega)]
  have hjoin := List.take_append_drop (firstBytes code) bytes
  rw [← hfirst, ← hlater] at hjoin
  unfold cellContent
  simp only [hfind, hcode']
  rw [hjoin]

/-- Settles O53. -/
theorem highwayWordsRoundTrip : Obligations.HighwayWordsRoundTrip :=
  ⟨fun _ hm => decodeMsg_encodeMsg hm,
    fun _ _ h => ⟨encodeMsg_of_decodeMsg h, (parts_of_decodeMsg h).1⟩,
    fun _ hs ht hi => decodeHeader_encodeHeader hs ht hi, fun _ _ h => encodeHeader_of_decodeHeader h,
    fun _ _ _ _ hk hm hi hlen hc => cellContent_of_good hk hm hi hlen hc⟩

/-! ### The cell choice (R125) -/

theorem State.runFree_iff (s : State) (x k : Nat) : s.runFree x k = true ↔ ∀ i, i < k → s.entry (x + i) = .free := by
  simp [State.runFree, List.all_eq_true]

theorem State.runFree_eq_false_iff (s : State) (x k : Nat) :
    s.runFree x k = false ↔ ∃ i, i < k ∧ s.entry (x + i) ≠ .free := by
  simp [State.runFree]

/-- The lowest FREE run among `n` places, `k` apart, from `x` on. -/
theorem State.lowestFree_spec (s : State) (k : Nat) : ∀ (n x : Nat),
    (∀ y, s.lowestFree k x n = some y → ∃ j, j < n ∧ y = x + j * k ∧ s.runFree y k = true ∧
      ∀ i, i < j → s.runFree (x + i * k) k = false) ∧
    (s.lowestFree k x n = none → ∀ i, i < n → s.runFree (x + i * k) k = false)
  | 0, x => ⟨by simp [State.lowestFree], fun _ i hi => absurd hi (Nat.not_lt_zero i)⟩
  | n + 1, x => by
    obtain ⟨hsome, hnone⟩ := State.lowestFree_spec s k n (x + k)
    have hshift (i : Nat) : x + k + i * k = x + (i + 1) * k := by rw [Nat.succ_mul]; omega
    simp only [State.lowestFree]
    by_cases hx : s.runFree x k = true
    · rw [if_pos hx]
      refine ⟨fun y hy => ?_, by simp⟩
      obtain rfl := Option.some.inj hy
      exact ⟨0, Nat.succ_pos n, by simp, hx, fun i hi => absurd hi (Nat.not_lt_zero i)⟩
    · rw [if_neg hx]
      have hzero : s.runFree (x + 0 * k) k = false := by simpa using hx
      have hcons {m : Nat} (h : ∀ i, i < m → s.runFree (x + k + i * k) k = false) :
          ∀ i, i < m + 1 → s.runFree (x + i * k) k = false
        | 0, _ => hzero
        | i + 1, hi => hshift i ▸ h i (by omega)
      refine ⟨fun y hy => ?_, fun h => hcons (hnone h)⟩
      obtain ⟨j, hj, hyj, hfree, hlow⟩ := hsome y hy
      exact ⟨j + 1, by omega, by rw [hyj, hshift], hfree, hcons hlow⟩

/-- Settles O37. -/
theorem cellChoiceTakesLowestFreeRun : Obligations.CellChoiceTakesLowestFreeRun := by
  intro s k hk
  obtain ⟨hsome, hnone⟩ := State.lowestFree_spec s k (Config.cells / k) 0
  have hk0 : 0 < k := by omega
  have hplaces : Config.cells / k * k = 1024 := by rcases hk with rfl | rfl | rfl <;> rfl
  have hplace {y : Nat} (hy : y % k = 0) : y / k * k = y := Nat.div_mul_cancel (Nat.dvd_of_mod_eq_zero hy)
  refine ⟨fun x hx => ?_, fun hx y hy hlim => ?_⟩
  · obtain ⟨j, hj, hxj, hfree, hlow⟩ := hsome x hx
    rw [Nat.zero_add] at hxj
    refine ⟨by rw [hxj, Nat.mul_mod_left], ?_, (s.runFree_iff x k).mp hfree, fun y hyx hy => ?_⟩
    · have := Nat.mul_le_mul_right k (show j + 1 ≤ Config.cells / k by omega)
      rw [hplaces, Nat.succ_mul] at this
      omega
    · have hi : y / k < j := (Nat.div_lt_iff_lt_mul hk0).mpr (hxj ▸ hyx)
      have h := hlow (y / k) hi
      rw [Nat.zero_add, hplace hy] at h
      exact (s.runFree_eq_false_iff y k).mp h
  · have hi : y / k < Config.cells / k := by
      rw [Nat.div_lt_iff_lt_mul hk0, hplaces]
      omega
    have h := hnone hx (y / k) hi
    rw [Nat.zero_add, hplace hy] at h
    exact (s.runFree_eq_false_iff y k).mp h

/-! ### Soaks, repeats and the condition queue (R171 to R174) -/

/-- The entry of a condition and an object is found under their key. -/
theorem State.inst_eq_some_iff (s : State) (k : CondKind) (o : CondObj) (i : Inst) :
    s.inst k o = some i ↔ Sparse.find s.cnd.insts (condKey k o) = some i ∧ i.kind = k ∧ i.obj = o := by
  simp [State.inst, Option.filter_eq_some_iff]

/-- Offering the record of an edge leaves the instances and the settings. -/
theorem Cnd.edge_rest (c : Cnd) (i : Inst) (e : Edge) (mf : Nat) :
    (c.edge i e mf).insts = c.insts ∧ (c.edge i e mf).settings = c.settings ∧ (c.edge i e mf).quiet = c.quiet := by
  unfold Cnd.edge
  split
  · obtain ⟨hi, hs, hq⟩ := c.offer_rest (i.record e mf)
    exact ⟨hi, hs, hq⟩
  · exact ⟨rfl, rfl, rfl⟩

theorem Cnd.offer_queue_congr {c d : Cnd} (hq : c.queue = d.queue) (hb : c.quiet = d.quiet) (r : CondRec) :
    (c.offer r).queue = (d.offer r).queue := by
  unfold Cnd.offer
  rw [hq, hb]
  split_ifs <;> simp_all

/-- A condition whose entry is replaced, with the record that its edge offers. -/
theorem State.setInst_edge {s : State} {k : CondKind} {o : CondObj} {i j : Inst} (hk : i.kind = k) (ho : i.obj = o)
    (hjk : j.kind = k) (hjo : j.obj = o) (e : Edge) :
    let u := (s.setInst j).setCnd ((s.setInst j).cnd.edge i e s.ftm.mfCount)
    u.inst k o = some j ∧
    u.cnd.queue = (if recordsEdge (s.cnd.setting k).type e then
      (s.cnd.offer ⟨k, o, e, s.ftm.mfCount, false, 0⟩).queue else s.cnd.queue) ∧
    u = s.setCnd u.cnd ∧ u.cnd.settings = s.cnd.settings ∧ u.cnd.quiet = s.cnd.quiet ∧
    (∀ a b, condKey a b ≠ condKey k o → u.inst a b = s.inst a b) := by
  subst hk ho
  obtain ⟨hinsts, hset, hquiet⟩ := (s.setInst j).cnd.edge_rest i e s.ftm.mfCount
  have hkey : condKey j.kind j.obj = condKey i.kind i.obj := by rw [hjk, hjo]
  intro u
  have hu : u.cnd.insts = Sparse.insert s.cnd.insts (condKey i.kind i.obj) j := hinsts.trans (by rw [← hkey]; rfl)
  refine ⟨(u.inst_eq_some_iff _ _ _).mpr ⟨by rw [hu]; exact Sparse.find_insert_self _ _ _, hjk, hjo⟩, ?_, rfl, hset,
    hquiet, fun a b hab => ?_⟩
  · have hsetting : (s.setInst j).cnd.setting i.kind = s.cnd.setting i.kind := rfl
    change ((s.setInst j).cnd.edge i e s.ftm.mfCount).queue = _
    unfold Cnd.edge
    rw [hsetting]
    split
    · exact Cnd.offer_queue_congr (c := (s.setInst j).cnd) (d := s.cnd) rfl rfl _
    · rfl
  · simp only [State.inst, hu, Sparse.find_insert_ne _ _ hab]

theorem recordsEdge_rise (t : ReportType) : recordsEdge t .rise = true ↔ t ≠ .off := by cases t <;> simp [recordsEdge]

theorem recordsEdge_clear (t : ReportType) : recordsEdge t .clear = true ↔ ¬ (t = .off ∨ t = .raiseOnly) := by
  cases t <;> simp [recordsEdge]

theorem recordsEdge_standing (t : ReportType) : recordsEdge t .standing = true ↔ t = .repeating := by
  cases t <;> simp [recordsEdge]

theorem markTail_append (l : List CondRec) (r : CondRec) :
    markTail (l ++ [r]) = l ++ [{ r with overflow := true, dropped := satInc 127 r.dropped }] := by
  induction l with
  | nil => rfl
  | cons a l ih =>
    cases l with
    | nil => rfl
    | cons b l => exact congrArg (List.cons a) ih

/-- Settles O39. -/
theorem soaksRepeatsAndQueue : Obligations.SoaksRepeatsAndQueue := by
  refine ⟨fun s k o i hi hk ho => ⟨fun hd hs hsoak => ?_, fun hd hs hsoak => ?_, fun hd hs hrep => ?_⟩,
    fun c r => ⟨fun hq => by simp [Cnd.offer, hq], fun hq hlt => by simp [Cnd.offer, hq, hlt], fun l e hq hl hfull => ?_⟩⟩
  · obtain ⟨hinst, hqueue, hset⟩ := State.setInst_edge (s := s) (j := i.flip) hk ho hk ho .rise
    have hsoaked : i.soaked (s.cnd.setting i.kind) = true := by
      simpa [Inst.soaked, hd, hs, hk, satInc_eq_min] using hsoak
    refine ⟨_, ?_, by simpa [Inst.flip, hd] using hinst, hqueue.trans ?_, hset⟩
    · refine congrArg Host.Outcome.next ?_
      simp only [hi, hsoaked, if_true, hd, Bool.false_eq_true, if_false]
    · simp only [recordsEdge_rise, ite_not]
  · obtain ⟨hinst, hqueue, hu, hset, hquiet, _⟩ := State.setInst_edge (s := s) (j := i.flip) hk ho hk ho .clear
    have hsoaked : i.soaked (s.cnd.setting i.kind) = true := by
      simpa [Inst.soaked, hd, hs, hk, satInc_eq_min] using hsoak
    refine ⟨_, ?_, by simpa [Inst.flip, hd] using hinst, hqueue.trans ?_, hu, hset, hquiet⟩
    · refine congrArg Host.Outcome.next ?_
      simp only [hi, hsoaked, if_true, hd]
    · simp only [recordsEdge_clear, ite_not]
  · obtain ⟨hinst, hqueue, hu, _⟩ := State.setInst_edge (s := s) (j := { i with rep := 0 }) hk ho hk ho .standing
    have hidle : i.soaked (s.cnd.setting i.kind) = false := by simp [Inst.soaked, hd, hs]
    have hstep : i.repeatStep (s.cnd.setting i.kind) = ({ i with rep := 0 }, some .standing) :=
      if_pos (by simpa [hk, satInc_eq_min] using hrep)
    refine ⟨_, ?_, hinst, hqueue.trans ?_, hu⟩
    · refine congrArg Host.Outcome.next ?_
      simp only [hi, hd, hidle, Bool.not_false, Bool.and_self, if_true, hstep]
    · simp only [recordsEdge_standing]
  · have hlong : ¬ c.queue.length < 64 := by omega
    unfold Cnd.offer
    rw [if_neg (by simp [hq]), if_neg hlong]
    simp only [hl, markTail_append, satInc_eq_min]

end Sys2Proof.Machine

/-! ## Proofs: messages on the highway -/

namespace Sys2Proof

/-- Writing a number twice leaves what was written last. -/
theorem Sparse.insert_insert {α : Type} (m : Sparse α) (k : Nat) (v w : α) :
    Sparse.insert (Sparse.insert m k v) k w = Sparse.insert m k w := by
  induction m with
  | nil => simp [Sparse.insert]
  | cons e r ih =>
    obtain ⟨j, x⟩ := e
    rcases Nat.lt_trichotomy k j with hlt | heq | hgt
    · simp [Sparse.insert, hlt]
    · subst heq
      simp [Sparse.insert]
    · have h1 : ¬ k < j := by omega
      have h2 : k ≠ j := by omega
      simp [Sparse.insert, h1, h2, ih]

end Sys2Proof

namespace Sys2Proof.Machine

/-! ### A record after several changes -/

@[simp] theorem State.setPath_setPath (s : State) (h : Nat) (p q : PathRec) : (s.setPath h p).setPath h q = s.setPath h q := by
  simp only [State.setPath, State.setPtb_ptb, Sparse.insert_insert]
  rfl

theorem State.modHw_of_path {s : State} {h : Nat} {p : PathRec} (hp : s.path h = some p) (f : SrcHw → SrcHw) :
    s.modHw h f = s.setPath h { p with hw := f p.hw } := State.modPath_of_path _ hp

theorem State.modSk_of_path {s : State} {h : Nat} {p : PathRec} (hp : s.path h = some p) (f : SnkHw → SnkHw) :
    s.modSk h f = s.setPath h { p with sk := f p.sk } := State.modPath_of_path _ hp

/-- A record that is in the state named takes the new one. -/
theorem State.request_of_path {s : State} {h : Nat} {p : PathRec} {a : PState} (hp : s.path h = some p) (ha : p.state = a)
    (b : PState) : s.request h a b = s.setPath h { p with state := b } :=
  (State.modPath_of_path _ hp).trans (by rw [if_pos ha])

/-- A change of one record is a change of that record alone. -/
theorem State.sameOthers_setPath (s : State) (h : Nat) (p : PathRec) : sameOthers h s (s.setPath h p) :=
  fun _ hg => State.path_setPath_ne s p hg

theorem sameOthers.trans {h : Nat} {s t u : State} (hst : sameOthers h s t) (htu : sameOthers h t u) : sameOthers h s u :=
  fun g hg => (htu g hg).trans (hst g hg)

theorem sameOthers_of_ptb {s u : State} (h : Nat) (hu : u.ptb = s.ptb) : sameOthers h s u :=
  fun g _ => State.path_congr hu g

/-! ### Messages between other stations (R110, R115 to R117) -/

/-- With no claim bound to a monitor nothing is withdrawn. -/
theorem State.claimQueued_of_idle {s : State} (hm : ∀ m ∈ s.hwy.mons, m = .idle) (h : Nat) : s.claimQueued h = false := by
  simp only [State.claimQueued, List.any_eq_false]
  intro m hmem
  rw [hm m hmem]
  simp

theorem State.withdrawMeeting_of_unclaimed {s : State} (hq : ∀ h, s.claimQueued h = false) (first size : Nat) :
    s.withdrawMeeting first size = s := by
  have hstep (h : Nat) : (match s.path h with
      | none => s
      | some p =>
        match p.claimedRun with
        | none => s
        | some run => if s.claimQueued h && runsMeet run p.k first size then s.withdraw h p run else s) = s := by
    split
    · rfl
    · split
      · rfl
      · rw [hq, Bool.false_and, if_neg (by simp)]
  unfold State.withdrawMeeting State.forPaths
  generalize s.handles = l
  induction l with
  | nil => rfl
  | cons a l ih =>
    rw [List.foldl_cons]
    refine (congrArg (fun u => List.foldl _ u l) ?_).trans ih
    exact hstep a

/-- A message that does not name this station changes the entries of its run by its kind, and nothing else. -/
theorem State.hear_of_others {s : State} {m : Msg} (hs : s.isOwn m.body.sender = false)
    (ha : s.isOwn m.body.addressee = false) (hm : ∀ x ∈ s.hwy.mons, x = .idle) :
    s.hear m = s.onRun m.body.first m.body.size (Msg.onEntry m (holderOf m) m.body.tag) := by
  have hquiet := State.withdrawMeeting_of_unclaimed (State.claimQueued_of_idle hm) m.body.first m.body.size
  have hown : ∀ f, (s.onRun m.body.first m.body.size f).isOwn m.body.addressee = false := fun _ => ha
  cases m with
  | claim b =>
    simp only [Msg.body] at hs ha hquiet hown ⊢
    simp [State.hear, State.hearClaim, State.applyMap, hs, hquiet, hown, Msg.body]
  | accept b =>
    simp only [Msg.body] at hs ha hquiet ⊢
    simp [State.hear, State.hearAccept, State.applyMap, ha, hquiet, Msg.body]
  | refuse b r =>
    simp only [Msg.body] at ha ⊢
    simp [State.hear, State.hearRefuse, State.applyMap, ha, Msg.body]
  | release b r =>
    simp only [Msg.body] at ha hown ⊢
    simp [State.hear, State.hearRelease, State.applyMap, ha, hown, Msg.body]

/-- A message of another station is heard where it passes, and fails otherwise. -/
theorem exec_message {s : State} {b : MsgBody} {i : Instr} {m : Msg}
    (hi : (i = .claim b ∧ m = .claim b) ∨ (i = .accept b ∧ m = .accept b) ∨ (∃ r, i = .refuse b r ∧ m = .refuse b r) ∨
      (∃ r, i = .release b r ∧ m = .release b r)) : exec i s = .next (s.hearOrFail m) ∧ m.body = b := by
  rcases hi with ⟨rfl, rfl⟩ | ⟨rfl, rfl⟩ | ⟨r, rfl, rfl⟩ | ⟨r, rfl, rfl⟩ <;> exact ⟨rfl, rfl⟩

theorem beq_and_beq (a b c d : Nat) : (a == b && c == d) = decide (a = b ∧ c = d) := by
  by_cases h : a = b <;> by_cases h' : c = d <;> simp [h, h']

theorem CellEntry.accepted_of_reserved (holder tag h t a : Nat) (acc rel : Bool) :
    (CellEntry.reserved h t a acc rel).accepted holder tag =
      .reserved holder tag 0 true (rel && decide (h = holder ∧ t = tag)) := by
  simp only [CellEntry.accepted, Bool.and_assoc, beq_and_beq]

/-- A message leaves an own entry. -/
theorem Msg.onEntry_of_own (m : Msg) (h t : Nat) {e : CellEntry} (he : e.isOwn = true) : Msg.onEntry m h t e = e := by
  cases e with
  | free => cases he
  | reserved => cases he
  | held => cases he
  | ownReserved => cases m <;> rfl
  | ownHeld => cases m <;> rfl

/-- What a RELEASE makes of an entry (R117). -/
theorem CellEntry.released_eq (holder tag : Nat) (e : CellEntry) : e.released holder tag =
    match e with
    | .reserved h t a acc rel => .reserved h t a acc (rel || decide (h = holder ∧ t = tag))
    | .held h t n rel => .held h t n (rel || decide (h = holder ∧ t = tag))
    | e => e := by
  cases e <;> simp only [CellEntry.released, beq_and_beq]

/-- Settles O29. -/
theorem heardMessageChangesRun : Obligations.HeardMessageChangesRun := by
  intro s b i m hT hsender haddr hmons hi
  obtain ⟨hexec, hbody⟩ := exec_message (s := s) hi
  refine ⟨fun hfail => ⟨s.failMessage, by rw [hexec, State.hearOrFail, if_neg (by simp [hfail])], ?_⟩,
    fun hpass => ⟨s.hear m, by rw [hexec, State.hearOrFail, if_pos hpass], ?_⟩⟩
  · unfold State.failMessage
    dsimp only
    split
    · rename_i hr
      exact ⟨satInc_eq_min _ _, rfl, rfl, rfl, rfl, rfl, rfl, rfl, rfl, rfl, rfl, fun _ => rfl⟩
    · rename_i hr
      obtain ⟨c, hc⟩ := State.event_eq
        (s.setHwy { s.hwy with msgCheck := satInc 65535 s.hwy.msgCheck, msgRaised := true }) .messageCheck .station
      rw [hc]
      exact ⟨satInc_eq_min _ _, rfl, rfl, rfl, rfl, rfl, rfl, rfl, rfl, rfl, rfl, fun h => absurd h hr⟩
  · subst hbody
    rw [State.hear_of_others hsender haddr hmons]
    refine ⟨⟨rfl, rfl, rfl, rfl, rfl, rfl, rfl, rfl⟩, rfl, rfl, State.sameOutside_onRun _ _ _ _, fun x hx hk => ?_⟩
    have hentry := State.entry_onRun_inside s m.body.first m.body.size (Msg.onEntry m (holderOf m) m.body.tag) x
      (State.rising_cells hT) ⟨hx, hk⟩
    rw [hentry]
    refine ⟨fun ho => ?_, fun hmc => ?_, fun hmc => ?_, fun r hmc => ?_, fun r w hmc hw => ?_⟩
    · exact Msg.onEntry_of_own m _ _ ho
    · rw [hmc]
      exact ⟨fun _ _ _ _ he => by rw [he]; rfl, fun he => by rw [he]; rfl, fun _ _ _ _ _ he => by rw [he]; rfl⟩
    · rw [hmc]
      exact ⟨fun _ _ _ _ he => by rw [he]; rfl, fun he => by rw [he]; rfl,
        fun h t a acc rel he => by rw [he]; exact CellEntry.accepted_of_reserved _ _ h t a acc rel⟩
    · rw [hmc]
      cases s.entry x <;> rfl
    · subst hw
      rw [hmc]
      exact CellEntry.released_eq _ _ _

end Sys2Proof.Machine

/-! ## Proofs: control bursts and answers -/

namespace Sys2Proof.Machine

/-! ### The open-drain line (R104, R112) -/

/-- The line carries what the station drives exactly when it reads every bit back. -/
theorem driveLine_eq_own_iff {n : Nat} (own others noise : BitVec n) :
    driveLine own others noise = own ↔ (own &&& others) ^^^ noise = own := by
  unfold driveLine
  dsimp only
  generalize hd : (own &&& others) ^^^ noise = driven
  have hzero : driven ^^^ own = 0 ↔ driven = own := BitVec.xor_eq_zero_iff
  by_cases h : driven = own
  · rw [if_pos (hzero.mpr h)]
  · rw [if_neg (mt hzero.mp h)]
    refine ⟨fun hline => absurd ?_ h, fun h' => absurd h' h⟩
    have hne : (driven ^^^ own).toNat ≠ 0 := fun h0 => h (hzero.mp (BitVec.eq_of_toNat_eq (by simpa using h0)))
    have hbit : (driven ^^^ own).getLsbD (Nat.log2 (driven ^^^ own).toNat) = true := Nat.testBit_log2 hne
    have hread := congrArg (fun w => BitVec.getLsbD w (Nat.log2 (driven ^^^ own).toNat)) hline
    have hlt := BitVec.lt_of_getLsbD hbit
    simp only [BitVec.getLsbD_or, BitVec.getLsbD_and, BitVec.getLsbD_not, BitVec.getLsbD_ofNat,
      Nat.testBit_two_pow_sub_one, Nat.lt_irrefl, decide_false, Bool.and_false, Bool.or_false, Bool.not_false, hlt,
      decide_true, Bool.and_true] at hread
    rw [BitVec.getLsbD_xor, hread] at hbit
    simp at hbit

theorem driveLine_alone {n : Nat} (own : BitVec n) : driveLine own (BitVec.allOnes n) 0 = own :=
  (driveLine_eq_own_iff _ _ _).mpr (by simp)

theorem driveLine_quiet_iff {n : Nat} (own others : BitVec n) : driveLine own others 0 = own ↔ own &&& others = own := by
  rw [driveLine_eq_own_iff]
  simp

/-! ### Control bursts (R104, R105, R110) -/

/-- A passing message is never the empty burst. -/
theorem encodeMsg_ne_allOnes {m : Msg} (hm : m.passes = true) : encodeMsg m ≠ BitVec.allOnes 51 := by
  intro h
  have hdec := decodeMsg_encodeMsg hm
  rw [h] at hdec
  obtain ⟨_, _, _, hs, ha, _⟩ := parts_of_decodeMsg hdec
  have hparts : (BitVec.allOnes 51).extractLsb' 44 4 = (BitVec.allOnes 51).extractLsb' 40 4 := by decide
  obtain ⟨_, _, hne, _⟩ := (Msg.passes_iff m).mp hm
  exact hne (by rw [hs, ha, hparts])

theorem State.listenBurst_of_message {s : State} {m : Msg} (hm : m.passes = true) :
    s.listenBurst (encodeMsg m) = s.hear m := by
  simp only [State.listenBurst, if_neg (encodeMsg_ne_allOnes hm), decodeMsg_encodeMsg hm]

theorem State.burst_of_listener {s : State} (h : s.contender = none) (line : BitVec 51) :
    s.burst line 0 = (s.setHwy { s.hwy with yielding := false, burstLine := line }).listenBurst line := by
  simp only [State.burst, h]
  rw [show line ^^^ 0 = line by simp]

theorem State.burst_alone {s : State} {m : Msg} (h : s.contender = some m) :
    s.burst (BitVec.allOnes 51) 0 = (s.setHwy { s.hwy with burstLine := encodeMsg m }).winBurst m := by
  simp only [State.burst, h, driveLine_alone, if_true]

/-- A message that wins leaves the queue, and yield becomes yes (R104, R105). -/
def State.won (s : State) (m : Msg) : State :=
  (s.setHwy { s.hwy with sendQ := s.hwy.sendQ.drop 1, yielding := true }).applyMap m

theorem State.applyMap_eq (s : State) (m : Msg) : ∃ x, s.applyMap m = s.setHwy { s.hwy with cells := x } ∧
    sameOutside m.body.first m.body.size s (s.applyMap m) := by
  unfold State.applyMap
  dsimp only
  split_ifs
  · exact ⟨s.hwy.cells, rfl, fun _ _ => rfl⟩
  · exact ⟨_, rfl, State.sameOutside_onRun _ _ _ _⟩

theorem State.won_eq (s : State) (m : Msg) : ∃ x, s.won m =
    s.setHwy { s.hwy with sendQ := s.hwy.sendQ.drop 1, yielding := true, cells := x } ∧
    sameOutside m.body.first m.body.size s (s.won m) := by
  obtain ⟨x, hx, hout⟩ := (s.setHwy { s.hwy with sendQ := s.hwy.sendQ.drop 1, yielding := true }).applyMap_eq m
  exact ⟨x, hx, hout⟩

/-- What a station that has won a burst makes of the message it sent (R105, R127, R131). -/
theorem State.winBurst_spec (s : State) (m : Msg) :
    (s.winBurst m).hwy.sendQ = s.hwy.sendQ.drop 1 ∧ (s.winBurst m).hwy.yielding = true ∧
    (s.winBurst m).hwy.burstLine = s.hwy.burstLine ∧ sameOutside m.body.first m.body.size s (s.winBurst m) ∧
    sameButPaths s (s.winBurst m) ∧
    (∀ b, m = .claim b → (s.winBurst m).ptb = s.ptb ∧
      (s.winBurst m).hwy.mons = s.hwy.mons.map (Monitor.start s.hwy.timeout b)) ∧
    (∀ b, m = .accept b → ∀ h, (s.winBurst m).path h = (s.path h).map (PathRec.acceptSent b)) ∧
    (∀ b r, m = .refuse b r → (s.winBurst m).ptb = s.ptb) ∧ (∀ b r, m = .release b r → (s.winBurst m).ptb = s.ptb) := by
  obtain ⟨x, hx, hout⟩ := s.won_eq m
  cases m with
  | claim b =>
    have hwin : s.winBurst (.claim b) = (s.won (.claim b)).setHwy { (s.won (.claim b)).hwy with
      mons := (s.won (.claim b)).hwy.mons.map (Monitor.start (s.won (.claim b)).hwy.timeout b) } := rfl
    rw [hwin]
    rw [hx] at hout ⊢
    exact ⟨rfl, rfl, rfl, hout, ⟨rfl, rfl, rfl, rfl, rfl, rfl, rfl, rfl⟩,
      fun b' hb => by cases hb; exact ⟨rfl, rfl⟩, by simp, by simp, by simp⟩
  | accept b =>
    have hwin : s.winBurst (.accept b) = (s.won (.accept b)).mapPaths (fun _ p => p.acceptSent b) := rfl
    rw [hwin]
    rw [hx] at hout ⊢
    exact ⟨rfl, rfl, rfl, hout, ⟨rfl, rfl, rfl, rfl, rfl, rfl, rfl, rfl⟩, by simp,
      fun b' hb h => by cases hb; exact State.path_mapPaths _ _ h, by simp, by simp⟩
  | refuse b r =>
    rw [show s.winBurst (.refuse b r) = s.won (.refuse b r) from rfl]
    rw [hx] at hout ⊢
    exact ⟨rfl, rfl, rfl, hout, ⟨rfl, rfl, rfl, rfl, rfl, rfl, rfl, rfl⟩, by simp, by simp, fun _ _ _ => rfl, by simp⟩
  | release b r =>
    rw [show s.winBurst (.release b r) = s.won (.release b r) from rfl]
    rw [hx] at hout ⊢
    exact ⟨rfl, rfl, rfl, hout, ⟨rfl, rfl, rfl, rfl, rfl, rfl, rfl, rfl⟩, by simp, by simp, by simp, fun _ _ _ => rfl⟩

/-- Settles O32. -/
theorem controlBurstOutcomes : Obligations.ControlBurstOutcomes := by
  intro s
  refine ⟨fun hc => ?_, fun m hm hc => ?_, fun q rest hq hy hsend => ?_⟩
  · refine congrArg Host.Outcome.next ((State.burst_of_listener hc _).trans ?_)
    rw [State.listenBurst, if_pos rfl]
  · exact congrArg Host.Outcome.next ((State.burst_of_listener hc _).trans (State.listenBurst_of_message hm))
  · have hc : s.contender = some q.msg := by simp [State.contender, hq, hy, hsend]
    obtain ⟨hsendQ, hyield, hline, hout, hbut, hclaim, haccept, hrefuse, hrelease⟩ :=
      (s.setHwy { s.hwy with burstLine := encodeMsg q.msg }).winBurst_spec q.msg
    refine ⟨_, congrArg Host.Outcome.next (State.burst_alone hc), hsendQ.trans ?_, hyield, hline, hout, hbut,
      fun b hb => ⟨(hclaim b hb).1, fun c hcm ht hf => ?_⟩, fun b h p hb hmove hp hr ht hst => ?_, hrefuse, hrelease⟩
    · rw [State.setHwy_hwy, hq]
      rfl
    · rw [(hclaim b hb).2]
      exact List.mem_map.mpr ⟨.bound c, hcm, by rw [Monitor.start, if_pos ⟨ht, hf⟩]; rfl⟩
    · rw [haccept b hb, State.path_setHwy, hp]
      simp [PathRec.acceptSent, hr, ht, hmove, hst]

end Sys2Proof.Machine

/-! ## Proofs: the sink's and the claimant's answers -/

namespace Sys2Proof.Machine

/-! ### The sink's answer (R130, R131) -/

theorem PathRec.receives_iff {p : PathRec} :
    p.receives = true ↔ p.role = .sink ∧ (p.state = .receiving ∨ p.state = .moving) := by
  cases hr : p.role <;> simp [PathRec.receives, PathRec.live, isLive, hr]

theorem PathRec.receives_of_listening {p : PathRec} (h : p.state = .listening) : p.receives = false := by
  cases hr : p.role <;> simp [PathRec.receives, PathRec.live, isLive, hr, h]

theorem State.failBerthMove_frame (s : State) (h : Nat) (c : MoveCause) :
    (s.failBerthMove h c).cbl = s.cbl ∧ (s.failBerthMove h c).hwy = s.hwy := by
  unfold State.failBerthMove
  split
  · exact ⟨rfl, rfl⟩
  · split
    · exact ⟨rfl, rfl⟩
    · simp

/-- A record with no move of berths has none that could fail. -/
theorem State.failBerthMove_of_none {s : State} {h : Nat} {p : PathRec} (hp : s.path h = some p) (hb : p.bmove = none)
    (c : MoveCause) : s.failBerthMove h c = s := by simp [State.failBerthMove, hp, hb]

theorem State.cancelSinkMove_of_none (s : State) (h : Nat) {p : PathRec} (hm : p.sk.move = none) :
    s.cancelSinkMove h p = s := by simp [State.cancelSinkMove, hm]

theorem State.cells_cancelSinkMove (s : State) (h : Nat) (p : PathRec) :
    (s.cancelSinkMove h p).hwy.cells = s.hwy.cells := by
  unfold State.cancelSinkMove
  split
  · rfl
  · dsimp only
    split <;> simp [State.unsendAccept]

/-- An accepted CLAIM changes the record and the send queue, and neither CBL nor the cell map. -/
theorem State.acceptClaim_frame (s : State) (h : Nat) (b : MsgBody) :
    (s.acceptClaim h b).cbl = s.cbl ∧ (s.acceptClaim h b).hwy.cells = s.hwy.cells := by
  obtain ⟨hcbl, hhwy⟩ := s.failBerthMove_frame h .lost
  unfold State.acceptClaim
  split
  · simp [State.send_station]
  · dsimp only
    split
    · exact ⟨hcbl, congrArg Hwy.cells hhwy⟩
    · simp [State.send_station, State.cancelSinkMove_frame, State.cells_cancelSinkMove, hcbl, hhwy]

theorem State.answerClaim_frame (s : State) (b : MsgBody) (c : Bool) :
    (s.answerClaim b c).cbl = s.cbl ∧ (s.answerClaim b c).hwy.cells = s.hwy.cells := by
  unfold State.answerClaim
  split
  · split
    · simp [State.send_station]
    · split
      · simp [State.send_station]
      · split
        · simp [State.send_station]
        · exact s.acceptClaim_frame _ b
  · exact ⟨rfl, rfl⟩

/-- A CLAIM that names no record of this station, or one of another remote station, is refused with NO_PATH. -/
theorem State.answerClaim_of_noPath {s : State} {b : MsgBody} (hroom : s.hasRoom = true)
    (h : s.findTag .sink b.tag = none ∨ ∃ h p, s.findTag .sink b.tag = some (h, p) ∧ p.remote ≠ some b.sender) (c : Bool) :
    s.answerClaim b c = s.send (.refuse (answerTo s b) .noPath) := by
  rcases h with h | ⟨h, p, hf, hr⟩
  · simp only [State.answerClaim, hroom, if_true, h]
  · simp only [State.answerClaim, hroom, if_true, hf, if_pos hr]

/-- A CLAIM for a record of this station is refused with the first reason of R130's table that applies. -/
theorem State.answerClaim_of_refusal {s : State} {b : MsgBody} (hroom : s.hasRoom = true) {h : Nat} {p : PathRec}
    (hf : s.findTag .sink b.tag = some (h, p)) (hr : p.remote = some b.sender) {c : Bool} {r : RefuseReason}
    (href : refusal p b c = some r) : s.answerClaim b c = s.send (.refuse (answerTo s b) r) := by
  simp only [State.answerClaim, hroom, if_true, hf, hr, ne_eq, not_true_eq_false, if_false, href]

theorem State.answerClaim_of_accept {s : State} {b : MsgBody} (hroom : s.hasRoom = true) {h : Nat} {p : PathRec}
    (hf : s.findTag .sink b.tag = some (h, p)) (hr : p.remote = some b.sender) {c : Bool}
    (href : refusal p b c = none) : s.answerClaim b c = s.acceptClaim h b := by
  simp only [State.answerClaim, hroom, if_true, hf, hr, ne_eq, not_true_eq_false, if_false, href]

/-- An answer changes at most the record that the CLAIM is for. -/
theorem State.sameOthers_answerClaim {s : State} {b : MsgBody} {h : Nat} {p : PathRec}
    (hf : s.findTag .sink b.tag = some (h, p)) (c : Bool) : sameOthers h s (s.answerClaim b c) := by
  unfold State.answerClaim
  split
  · rename_i hroom
    simp only [hf]
    split
    · exact sameOthers_of_ptb h (s.send_ptb _)
    · split
      · exact sameOthers_of_ptb h (s.send_ptb _)
      · exact (State.Reworks.acceptClaim (H := (· = h)) rfl (State.silent_eq_false_of_hasRoom hroom) b).sameOthers
  · exact fun _ _ => rfl

/-- A CLAIM addressed to this station by another, with no claim of its own queued, is applied to the map and answered. -/
theorem State.hear_claim {s : State} {b : MsgBody} (hp : (Msg.claim b).passes = true) (ha : s.isOwn b.addressee = true)
    (hm : ∀ x ∈ s.hwy.mons, x = .idle) :
    s.hear (.claim b) = (s.onRun b.first b.size (Msg.onEntry (.claim b) b.sender b.tag)).answerClaim b (s.conflict b) := by
  obtain ⟨_, _, hne, _⟩ := (Msg.passes_iff _).mp hp
  have hs : s.isOwn b.sender = false := by
    simp only [State.isOwn, beq_iff_eq, beq_eq_false_iff_ne] at ha ⊢
    rw [ha]
    exact fun h => hne (Option.some.inj h).symm
  have hown : ∀ f, (s.onRun b.first b.size f).isOwn b.addressee = true := fun _ => ha
  simp [State.hear, State.hearClaim, State.applyMap, hs,
    State.withdrawMeeting_of_unclaimed (State.claimQueued_of_idle hm), hown, Msg.body, holderOf]

/-- Settles O33. -/
theorem sinkAnswersClaim : Obligations.SinkAnswersClaim := by
  intro s b c hpass hown hmons hc hroom
  set v := s.onRun b.first b.size (Msg.onEntry (.claim b) b.sender b.tag) with hv
  have hexec : exec (.claim b) s = .next (v.answerClaim b (s.conflict b)) := by
    refine congrArg Host.Outcome.next ((if_pos hpass).trans (State.hear_claim hpass hown hmons))
  have hself : s.self = b.addressee := by
    simp only [State.isOwn, beq_iff_eq] at hown
    simp [State.self, hown]
  have hanswer : answerTo v b = c := by rw [hc, ← hself]; rfl
  have hvroom : v.hasRoom = true := hroom
  have hfind : v.findTag .sink b.tag = s.findTag .sink b.tag := rfl
  have hsent (m : Msg) : (v.send m).ptb = s.ptb ∧ (v.send m).hwy.sendQ = s.hwy.sendQ ++ [freshMsg m] :=
    ⟨v.send_ptb m, State.sendQ_send_of_room m hvroom⟩
  obtain ⟨hcbl, hcells⟩ := v.answerClaim_frame b (s.conflict b)
  have hre := (State.Reworks.onRun (H := fun _ => True) (s := s) b.first b.size
    (Msg.onEntry (.claim b) b.sender b.tag)).trans (State.Reworks.answerClaim (s := v) b (s.conflict b))
  refine ⟨v.answerClaim b (s.conflict b), hexec, hre.sameButPaths hcbl,
    fun x hx => (State.entry_congr hcells x).trans (State.sameOutside_onRun s _ _ _ x hx), fun hnone => ?_,
    fun h p hf hp => ⟨State.sameOthers_answerClaim (s := v) hf _, fun hr => ?_, fun hr => ?_⟩⟩
  · rw [State.answerClaim_of_noPath hvroom (.inl hnone), hanswer]
    exact hsent _
  · rw [State.answerClaim_of_noPath hvroom (.inr ⟨h, p, hf, hr⟩), hanswer]
    exact hsent _
  · have hrefused {r : RefuseReason} (href : refusal p b (s.conflict b) = some r) :
        (v.answerClaim b (s.conflict b)).ptb = s.ptb ∧
        (v.answerClaim b (s.conflict b)).hwy.sendQ = s.hwy.sendQ ++ [freshMsg (.refuse c r)] := by
      rw [State.answerClaim_of_refusal hvroom hf hr href, hanswer]
      exact hsent _
    have hvp : v.path h = some p := hp
    refine ⟨fun hk => hrefused (if_pos hk), fun hk hd => hrefused (by simp [refusal, hk, hd]),
      fun hk hm hbusy => hrefused ?_, fun hk hm hl hconf => hrefused ?_, fun hk hm hl hb hsm hconf => ?_,
      fun hk hm hrec hsm hconf => ?_⟩
    · rcases hbusy with hacc | ⟨hrec, hloss⟩
      · simp [refusal, hk, hm, hacc]
      · obtain ⟨_, hstate⟩ := PathRec.receives_iff.mp hrec
        rcases hstate with hst | hst <;> simp [refusal, hk, hm, hst, hrec, hloss]
    · have hnr := PathRec.receives_of_listening hl
      simp [refusal, hk, hm, hl, hnr, hconf]
    · have hnr := PathRec.receives_of_listening hl
      rw [State.answerClaim_of_accept hvroom hf hr (by simp [refusal, hk, hm, hl, hnr, hconf])]
      simp only [State.acceptClaim, hm, Bool.false_eq_true, if_false, State.failBerthMove_of_none hvp hb, hvp,
        State.cancelSinkMove_of_none v h hsm, hanswer]
      refine ⟨by simpa using (hsent (.accept c)).2, ?_⟩
      rw [State.path_request_self, State.path_modSk_self, State.path_send, hvp]
      simp [SnkHw.zeroed]
    · obtain ⟨_, hstate⟩ := PathRec.receives_iff.mp hrec
      rw [State.answerClaim_of_accept hvroom hf hr
        (by rcases hstate with hst | hst <;> simp [refusal, hk, hm, hst, hsm, hconf])]
      simp only [State.acceptClaim, hm, if_true, hanswer]
      refine ⟨by simpa using (hsent (.accept c)).2, ?_⟩
      rw [State.path_modSk_self, State.path_send, hvp]
      rfl

end Sys2Proof.Machine

/-! ## Proofs: the claimant, and the RELEASE -/

namespace Sys2Proof.Machine

/-! ### Frames of changes on the highway -/

/-- A change of a record's highway fields and a request, in one. -/
theorem State.modHw_request {s : State} {h : Nat} {p : PathRec} {a : PState} (hp : s.path h = some p) (ha : p.state = a)
    (f : SrcHw → SrcHw) (b : PState) :
    (s.modHw h f).request h a b = s.setPath h { p with state := b, hw := f p.hw } := by
  rw [State.modHw_of_path hp, State.request_of_path (p := { p with hw := f p.hw }) (State.path_setPath_self _ _ _) ha,
    State.setPath_setPath]

theorem State.modSk_request {s : State} {h : Nat} {p : PathRec} {a : PState} (hp : s.path h = some p) (ha : p.state = a)
    (f : SnkHw → SnkHw) (b : PState) :
    (s.modSk h f).request h a b = s.setPath h { p with state := b, sk := f p.sk } := by
  rw [State.modSk_of_path hp, State.request_of_path (p := { p with sk := f p.sk }) (State.path_setPath_self _ _ _) ha,
    State.setPath_setPath]

theorem sameButPaths.refl (s : State) : sameButPaths s s := ⟨rfl, rfl, rfl, rfl, rfl, rfl, rfl, rfl⟩

theorem sameButPaths.trans {s t u : State} (hst : sameButPaths s t) (htu : sameButPaths t u) : sameButPaths s u := by
  obtain ⟨h1, h2, h3, h4, h5, h6, h7, h8⟩ := hst
  obtain ⟨h1', h2', h3', h4', h5', h6', h7', h8'⟩ := htu
  exact ⟨h1'.trans h1, h2'.trans h2, h3'.trans h3, h4'.trans h4, h5'.trans h5, h6'.trans h6, h7'.trans h7, h8'.trans h8⟩

theorem State.sameButPaths_setPath (s : State) (h : Nat) (p : PathRec) : sameButPaths s (s.setPath h p) :=
  ⟨rfl, rfl, rfl, rfl, rfl, rfl, rfl, rfl⟩

theorem State.sameButPaths_setHwy (s : State) (x : Hwy) : sameButPaths s (s.setHwy x) :=
  ⟨rfl, rfl, rfl, rfl, rfl, rfl, rfl, rfl⟩

theorem State.sameButPaths_post (s : State) (h : Nat) (c : Completion) : sameButPaths s (s.post h c) :=
  ⟨s.post_ftm h c, s.post_clp h c, s.post_crx h c, s.post_fil h c, s.post_cbl h c, s.post_cnd h c, s.post_cmd h c,
    s.post_pending h c⟩

theorem State.sameButPaths_send (s : State) (m : Msg) : sameButPaths s (s.send m) := by
  unfold State.send
  split
  · exact s.sameButPaths_setHwy _
  · exact .refl s

/-! ### The claimant (R128, R133, R134) -/

/-- The claim whose monitor runs takes the answer that matches it (R128). -/
theorem State.matchAnswer_running {s : State} {b : MsgBody} {c : Bound} {n : Nat} {o : Monitor}
    (hm : s.hwy.mons = [.running c n, o]) (ht : c.tag = b.tag) (hf : c.first = b.first) (hk : c.k = b.size)
    (ha : c.addressee = b.sender) : s.matchAnswer b = some c.handle := by
  simp [State.matchAnswer, hm, Monitor.matches, ht, hf, hk, ha, Monitor.info]

/-- The monitors after the claim's own has stopped. -/
theorem State.idleMonitors_mons {s : State} {c : Bound} {n h : Nat} {o : Monitor} (hm : s.hwy.mons = [.running c n, o])
    (hc : c.handle = h) (ho : o.isFor h = false) : (s.idleMonitors h).hwy.mons = [.idle, o] := by
  have hrun : (Monitor.running c n).isFor h = true := beq_iff_eq.mpr hc
  simp [hm, ho, hrun]

theorem refusedForGood_iff (r : RefuseReason) : refusedForGood r = true ↔ r = .noPath ∨ r = .sizeMismatch := by
  cases r <;> simp [refusedForGood]

/-- The record of a claim that is refused (R134). -/
def PathRec.claimRefused (p : PathRec) (r : RefuseReason) (own : Nat) : PathRec :=
  { p with
    state := if refusedForGood r then .blocked else .waiting
    hw := { p.hw with cells := none, refusal := some (.reason r),
                      backoff := if refusedForGood r then p.hw.backoff else some ((own + 1) * 2) } }

/-- A refused claim frees its run, leaves its record waiting or blocked, and posts the reason. -/
theorem State.takeRefuse_of_claiming {s : State} {h x : Nat} {p : PathRec} (hp : s.path h = some p)
    (hst : p.state = .claiming) (hx : p.hw.cells = some x) (r : RefuseReason) :
    s.takeRefuse h false r =
      (((s.idleMonitors h).freeRun x p.k).setPath h (p.claimRefused r s.self)).post h (.claimRefused r) := by
  have hp1 : (s.idleMonitors h).path h = some p := hp
  have hp2 : ((s.idleMonitors h).freeRun x p.k).path h = some p := hp
  simp only [State.takeRefuse, hp1, Bool.false_eq_true, if_false, if_pos hst, hx, State.freeOpt]
  rw [State.modHw_request hp2 hst]
  rfl

/-- Settles O34. -/
theorem claimantTakesAnswer : Obligations.ClaimantTakesAnswer := by
  intro s b h n p c o hT hown hsender hmons ho hch hct hcf hck hca hp hrole hst hk hcells hmove hrun
  have hmatch := State.matchAnswer_running hmons hct hcf hck hca
  have hidle := State.idleMonitors_mons hmons hch (h := h) (by rw [ho]; rfl)
  rw [ho] at hidle
  refine ⟨fun hpass => ?_, fun r hpass hl => ?_⟩
  · let q : PathRec := { p with hw := { p.hw with acceptHeard := true } }
    have hhear : s.hear (.accept b) =
        ((s.idleMonitors h).setPath h q).onRun b.first b.size (Msg.onEntry (.accept b) b.addressee b.tag) := by
      have htake : s.takeAccept h false = (s.idleMonitors h).setPath h q := by
        rw [State.takeAccept, if_neg (by simp), State.modPath_of_path _ (show (s.idleMonitors h).path h = some p from hp),
          if_pos hst]
      simp [State.hear, State.hearAccept, hown, hmatch, hch, hmove, htake, State.applyMap, Msg.body, holderOf]
    refine ⟨_, congrArg Host.Outcome.next ((if_pos hpass).trans hhear), hidle, rfl, fun x => ?_,
      State.path_setPath_self _ _ _, State.sameOthers_setPath (s.idleMonitors h) h q,
      ⟨rfl, rfl, rfl, rfl, rfl, rfl, rfl, rfl⟩, rfl⟩
    by_cases hx : b.first ≤ x ∧ x < b.first + b.size
    · refine (State.entry_onRun_inside _ _ _ _ _ (State.rising_cells hT) hx).trans ?_
      exact Msg.onEntry_of_own (.accept b) b.addressee b.tag (hrun x hx.1 hx.2)
    · exact State.entry_onRun_outside _ _ _ _ _ hx
  · set v := ((s.idleMonitors h).freeRun b.first p.k).setPath h (p.claimRefused r s.self) with hv
    have hhear : s.hear (.refuse b r) =
        (v.post h (.claimRefused r)).onRun b.first b.size (Msg.onEntry (.refuse b r) b.addressee b.tag) := by
      simp [State.hear, State.hearRefuse, hown, hmatch, hch, hmove, State.takeRefuse_of_claiming hp hst hcells,
        State.applyMap, Msg.body, holderOf, ← hv]
    have hvp : v.path h = some (p.claimRefused r s.self) := State.path_setPath_self _ _ _
    have hvl : v.listed h = false := hl
    obtain ⟨hcompl, hpath⟩ := State.post_unlisted hvp hvl (.claimRefused r)
    have hhwy : (v.post h (.claimRefused r)).hwy = ((s.idleMonitors h).freeRun b.first p.k).hwy := State.post_hwy _ _ _
    have hcells' (x : Nat) : (v.post h (.claimRefused r)).entry x = (s.freeRun b.first p.k).entry x :=
      State.entry_congr (s := (s.idleMonitors h).freeRun b.first p.k) (congrArg Hwy.cells hhwy) x
    have hrise : Sparse.rising (v.post h (.claimRefused r)).hwy.cells = true := by
      rw [hhwy]
      exact rising_mapRun _ _ _ _ (State.rising_cells hT)
    refine ⟨_, _, congrArg Host.Outcome.next ((if_pos hpass).trans hhear), hpath, (congrArg Hwy.mons hhwy).trans hidle,
      (congrArg Hwy.sendQ hhwy : (v.post h (.claimRefused r)).hwy.sendQ = _), fun x hx hxk => ?_, fun x hx => ?_, ?_, rfl, rfl, rfl, ?_, hcompl, ?_, ?_⟩
    · rw [State.entry_onRun_inside _ _ _ _ _ hrise ⟨hx, hxk⟩, hcells',
        State.entry_freeRun (State.rising_cells hT) hx (hk ▸ hxk) (hrun x hx hxk)]
      rfl
    · rw [State.entry_onRun_outside _ _ _ _ _ hx, hcells']
      exact s.sameOutside_freeRun _ _ x (hk ▸ hx)
    · simp only [PathRec.claimRefused, refusedForGood_iff]
    · simp only [PathRec.claimRefused, refusedForGood_iff]
    · exact fun g hg => (State.path_post_ne v hg _).trans (State.path_setPath_ne _ _ hg)
    · exact sameButPaths.trans (t := v) ⟨rfl, rfl, rfl, rfl, rfl, rfl, rfl, rfl⟩ (v.sameButPaths_post h _)

/-! ### RELEASE and the answers that are too old (R108, R132, R143) -/

/-- A sink with no move of its own that leaves ACCEPTED, RECEIVING or MOVING for LISTENING: a queued ACCEPT is removed,
and its highway fields are cleared. -/
theorem State.sinkListens_of_unmoved {s : State} {h : Nat} {p : PathRec} (hp : s.path h = some p) (hb : p.bmove = none)
    (hm : p.sk.move = none) (c : MoveCause) : s.sinkListens h c =
      (if p.sk.status = some .queued then s.unsendAccept p.tag false else s).setPath h
        { p with state := .listening, sk := p.sk.listening } := by
  have hfields : ({ p.sk.zeroed with cells := none, status := none, watch := none } : SnkHw) = p.sk.listening := by
    unfold SnkHw.listening SnkHw.zeroed
    rw [← hm]
  simp only [State.sinkListens, State.failBerthMove_of_none hp hb, hp, State.cancelSinkMove_of_none s h hm]
  have hpu : (if p.sk.status = some .queued then s.unsendAccept p.tag false else s).path h = some p := by
    split <;> exact hp
  rw [State.modSk_request hpu rfl, hfields]

/-- Taking an ACCEPT out of the queue changes the queue alone. -/
theorem State.sendQ_unsendAccept (s : State) (t : Nat) : (s.unsendAccept t false).hwy.sendQ =
    s.hwy.sendQ.filter (fun q => match q.msg with | .accept a => !(a.tag == t && !a.move) | _ => true) := by
  refine List.filter_congr fun q _ => ?_
  cases q.msg with
  | accept a => cases a.move <;> simp
  | _ => rfl

/-- A RELEASE of the run of a sink takes it to LISTENING, with SINK_LOST where it was receiving (R132). -/
theorem State.releaseSink_of_run {s : State} {h : Nat} {p : PathRec} {b : MsgBody} (hc : p.sk.cells = some b.first)
    (hk : p.k = b.size) (hst : p.state = .receiving ∨ p.state = .accepted ∨ p.state = .moving) :
    s.releaseSink h p b =
      if p.state = .accepted then s.sinkListens h .lost else (s.sinkListens h .lost).post h .sinkLost := by
  unfold State.releaseSink
  rw [if_pos ⟨hc, hk⟩]
  rcases hst with hst | hst | hst <;> simp [hst]

/-- A RELEASE that is not SINK_GONE, for a sink of its sender, is applied to the map and then to the record. -/
theorem State.hear_release {s : State} {b : MsgBody} {r : ReleaseReason} {h : Nat} {p : PathRec} (hr : r ≠ .sinkGone)
    (ha : s.isOwn b.addressee = true) (hf : s.findTag .sink b.tag = some (h, p)) (hrem : p.remote = some b.sender) :
    s.hear (.release b r) = (s.onRun b.first b.size (Msg.onEntry (.release b r) b.sender b.tag)).releaseSink h p b := by
  have hown : ∀ f, (s.onRun b.first b.size f).isOwn b.addressee = true := fun _ => ha
  have hfind : ∀ f, (s.onRun b.first b.size f).findTag .sink b.tag = some (h, p) := fun _ => hf
  simp [State.hear, State.hearRelease, State.applyMap, Msg.body, holderOf, hr, hown, hfind, hrem]

/-- A RELEASE SINK_GONE about this station's own run takes a CARRYING source to WAITING. -/
theorem State.hear_sinkGone {s : State} {b : MsgBody} {h : Nat} {p : PathRec} (ha : s.isOwn b.addressee = true)
    (hf : s.findTag .source b.tag = some (h, p)) (hp : s.path h = some p) (hrem : p.remote = some b.sender)
    (hc : p.hw.cells = some b.first) (hk : p.k = b.size) (hst : p.state = .carrying) :
    s.hear (.release b .sinkGone) = (s.freeRun b.first p.k).setPath h { p with state := .waiting, hw := { p.hw with
      cells := none, acceptHeard := false, clean := 0, cleanRun := false, backoff := some ((s.self + 1) * 2) } } := by
  have hgone : s.hear (.release b .sinkGone) = s.sourceReleased h p .carrying := by
    simp [State.hear, State.hearRelease, State.applyMap, ha, hf, hrem, State.sinkGone, hc, hk, hst]
  rw [hgone, State.sourceReleased, hc]
  exact State.modHw_request (s := s.freeRun b.first p.k) hp hst _ _

/-- Settles O35. -/
theorem sinksAndSourcesAreReleased : Obligations.SinksAndSourcesAreReleased := by
  refine ⟨fun s b r h p hpass hr hown hf hp hrole hrem hc hk hb hm hl hst => ?_,
    fun s b h p hT hpass hown hf hp hrem hc hk hst => ?_, fun s b h p rest hmove hq hage hf hp hst => ?_⟩
  · set v := s.onRun b.first b.size (Msg.onEntry (.release b r) b.sender b.tag) with hv
    have hvp : v.path h = some p := hp
    have hhear : s.hear (.release b r) = _ := (State.hear_release hr hown hf hrem).trans
      (State.releaseSink_of_run (s := v) hc hk hst)
    rw [State.sinkListens_of_unmoved hvp hb hm] at hhear
    set w := (if p.sk.status = some .queued then v.unsendAccept p.tag false else v).setPath h
      { p with state := .listening, sk := p.sk.listening } with hw
    have hwp : w.path h = some { p with state := .listening, sk := p.sk.listening } := State.path_setPath_self _ _ _
    have hwbut : sameButPaths s w := by
      rw [hw]
      split <;> exact ⟨rfl, rfl, rfl, rfl, rfl, rfl, rfl, rfl⟩
    have hwother : sameOthers h s w := by
      intro g hg
      rw [hw, State.path_setPath_ne _ _ hg]
      split <;> rfl
    have hwcompl : w.ptb.completions = s.ptb.completions := by
      rw [hw]
      split <;> rfl
    have hkeep : p.sk.status ≠ some .queued → w.hwy.sendQ = s.hwy.sendQ := fun h => by rw [hw, if_neg h]; rfl
    have hremove : p.sk.status = some .queued → w.hwy.sendQ = s.hwy.sendQ.filter (fun q => match q.msg with
        | .accept a => !(a.tag == p.tag && !a.move) | _ => true) := fun h => by
      rw [hw, if_pos h]
      exact State.sendQ_unsendAccept v p.tag
    have hexec : exec (.release b r) s = .next (s.hear (.release b r)) := congrArg Host.Outcome.next (if_pos hpass)
    by_cases hacc : p.state = .accepted
    · rw [hexec, hhear, if_pos hacc]
      exact ⟨w, _, rfl, hwp, rfl, rfl, fun _ => hwcompl, fun h => absurd hacc h, hkeep, hremove, hwother, hwbut⟩
    · rw [hexec, hhear, if_neg hacc]
      obtain ⟨hcompl, hpath⟩ := State.post_unlisted hwp ((State.listed_congr hwcompl h).trans hl) .sinkLost
      refine ⟨w.post h .sinkLost, _, rfl, hpath, rfl, rfl, fun h => absurd h hacc, fun _ => hcompl.trans (by rw [hwcompl]),
        fun h => ?_, fun h => ?_, fun g hg => (State.path_post_ne w hg _).trans (hwother g hg),
        hwbut.trans (w.sameButPaths_post h _)⟩
      · exact (congrArg Hwy.sendQ (State.post_hwy _ _ _)).trans (hkeep h)
      · exact (congrArg Hwy.sendQ (State.post_hwy _ _ _)).trans (hremove h)
  · refine ⟨_, congrArg Host.Outcome.next ((if_pos hpass).trans (State.hear_sinkGone hown hf hp hrem hc hk hst)),
      State.path_setPath_self _ _ _, fun x hx hxk ho => ?_, rfl, State.sameOthers_setPath (s.freeRun b.first p.k) h _,
      ⟨rfl, rfl, rfl, rfl, rfl, rfl, rfl, rfl⟩⟩
    exact State.entry_freeRun (State.rising_cells hT) hx (hk ▸ hxk) ho
  · have hlate : ∀ q ∈ rest, ({ q with age := q.age + 1 } : QueuedMsg).stale = false := fun q hq => by
      have := hage q hq
      unfold QueuedMsg.stale
      cases q.msg <;> simp
      all_goals omega
    have hdrop : s.hwy.sendQ.filter (fun q => ({ q with age := q.age + 1 } : QueuedMsg).stale) =
        [{ msg := .accept b, age := 15 }] := by
      rw [hq, List.filter_cons_of_pos rfl, List.filter_eq_nil_iff.mpr fun q hq => by simp [hlate q hq]]
    have hkeep : s.hwy.sendQ.filter (fun q => !({ q with age := q.age + 1 } : QueuedMsg).stale) = rest := by
      rw [hq, List.filter_cons_of_neg (by simp [QueuedMsg.stale]), List.filter_eq_self.mpr fun q hq => by simp [hlate q hq]]
    have hv : (s.setHwy { s.hwy with sendQ := rest }).path h = some p := hp
    have hfind : (s.setHwy { s.hwy with sendQ := rest }).findTag .sink b.tag = some (h, p) := hf
    have hexec : exec .answerDrop s = .next ((s.setHwy { s.hwy with sendQ := rest }).setPath h
        { p with state := .listening, sk := { p.sk with status := none, cells := none } }) := by
      refine congrArg Host.Outcome.next ?_
      rw [hdrop, hkeep]
      simp only [List.foldl_cons, List.foldl_nil, State.answerDropped, hfind, hmove, Bool.false_eq_true, if_false,
        if_pos hst]
      exact State.modSk_request hv hst _ _
    exact ⟨_, hexec, rfl, State.path_setPath_self _ _ _, rfl,
      State.sameOthers_setPath (s.setHwy { s.hwy with sendQ := rest }) h _, ⟨rfl, rfl, rfl, rfl, rfl, rfl, rfl, rfl⟩⟩

end Sys2Proof.Machine

/-! ## Proofs: cells of the highway -/

namespace Sys2Proof.Machine

/-! ### A driven cell and a collision (R111, R112, R135) -/

/-- The record of a run that has collided: COLLIDED with its backoff, or at the fourth attempt STRANDED (R135). -/
def PathRec.collided (p : PathRec) (own : Nat) : PathRec :=
  { p with
    state := if p.hw.attempt < 3 then .collided else .stranded
    hw := { p.hw with attempt := min 4 (p.hw.attempt + 1), clean := 0, cleanRun := false, cells := none,
                      backoff := if p.hw.attempt < 3 then some ((own + 1) * 2 ^ p.hw.attempt) else p.hw.backoff } }

/-- A collision in the run of a CARRYING record: it releases its run and is COLLIDED, or STRANDED with its completion. -/
theorem State.collideCarrying_eq {s : State} {h r : Nat} {p : PathRec} (hp : s.path h = some p) (hst : p.state = .carrying)
    (hr : p.hw.cells = some r) : s.collideCarrying h p .carrying =
      let v := ((s.send (releaseOf s p r .collision)).freeRun r p.k).setPath h (p.collided s.self)
      if p.hw.attempt < 3 then v else v.post h .stranded := by
  have hv : ((s.send (releaseOf s p r .collision)).freeRun r p.k).path h = some p := by simp [hp]
  have hself : ((s.send (releaseOf s p r .collision)).freeRun r p.k).self = s.self :=
    State.self_congr (s.send_station _).2.1
  have hfree : (s.releaseOpt p (some r) .collision).freeOpt (some r) p.k =
    (s.send (releaseOf s p r .collision)).freeRun r p.k := rfl
  simp only [State.collideCarrying, hr, hfree, satInc_eq_min, PathRec.collided]
  by_cases ha : p.hw.attempt < 3
  · have ha' : min 4 (p.hw.attempt + 1) < 4 := by omega
    have hexp : min 4 (p.hw.attempt + 1) - 1 = p.hw.attempt := by omega
    simp only [if_pos ha, if_pos ha', hexp, hself]
    exact State.modHw_request hv hst _ _
  · have ha' : ¬ min 4 (p.hw.attempt + 1) < 4 := by omega
    simp only [if_neg ha, if_neg ha']
    exact congrArg (fun u => State.post u h .stranded) (State.modHw_request hv hst _ _)

/-- What a collision takes away: the drives of the record. -/
def State.undriven (s : State) (h : Nat) : State :=
  s.setHwy { s.hwy with drives := s.hwy.drives.filter (fun d => !(d.handle == h)) }

theorem State.collide_carrying {s : State} {h tag x r : Nat} {p : PathRec} (hp : s.path h = some p) (ht : p.tag = tag)
    (hst : p.state = .carrying) (hr : p.hw.cells = some r) (hrx : r ≤ x) (hxk : x < r + p.k) :
    s.collide h tag x = (s.undriven h).collideCarrying h p .carrying := by
  have hv : (s.undriven h).path h = some p := hp
  have hin : inRun x p.k p.hw.cells = true := by simp [hr, inRun, hrx, hxk]
  change (match (s.undriven h).path h with
    | none => s.undriven h
    | some p => _) = _
  simp only [hv, ht, ne_eq, not_true_eq_false, if_false, hst, hin, if_true]
  rfl

/-- Settles O31. -/
theorem drivenCellAndCollision : Obligations.DrivenCellAndCollision := by
  intro s x d own others noise payload hT hx hfind hown
  have hcell : ¬ Config.cells ≤ x := Nat.not_le.mpr hx
  set v := s.setHwy { s.hwy with passed := s.hwy.passed ||| BitVec.twoPow 1024 x } with hv
  have hexec : exec (.highwayCell x others noise payload) s = .next (v.driveCell d x others noise) := by
    change execHighwayCell x others noise payload s = _
    rw [execHighwayCell, if_neg hcell]
    have hfind' : v.hwy.drives.find? (fun e => decide (e.first ≤ x) && decide (x < e.first + e.k)) = some d := hfind
    simp only [← hv, hfind']
  refine ⟨driveLine_alone own, driveLine_quiet_iff own, fun hline => ?_,
    fun p r hline hp ht hst hr hrx hxk hl => ?_⟩
  · rw [hexec]
    refine congrArg Host.Outcome.next ?_
    have hline' : driveLine (encodeHeader (d.header v.self (x - d.first))) others noise =
        encodeHeader (d.header v.self (x - d.first)) := by rw [hown] at hline; exact hline
    rw [State.driveCell, if_pos hline', hline', hown]
    rfl
  · have hline' : driveLine (encodeHeader (d.header v.self (x - d.first))) others noise ≠
        encodeHeader (d.header v.self (x - d.first)) := by rw [hown] at hline; exact hline
    obtain ⟨out, hdrive⟩ : ∃ out, v.driveCell d x others noise =
        (v.setHwy { v.hwy with cellOut := out }).collide d.handle d.tag x := by
      rw [State.driveCell, if_neg hline']
      exact ⟨_, rfl⟩
    set w := (v.setHwy { v.hwy with cellOut := out }).undriven d.handle with hw
    have hwp : w.path d.handle = some p := hp
    have hwT : w.TablesOk := hT
    have hcollide : v.driveCell d x others noise = w.collideCarrying d.handle p .carrying :=
      hdrive.trans (State.collide_carrying (s := v.setHwy { v.hwy with cellOut := out }) hp ht hst hr hrx hxk)
    have hwhwy : w.hwy = { s.hwy with
        passed := s.hwy.passed ||| BitVec.twoPow 1024 x, cellOut := out,
        drives := s.hwy.drives.filter (fun e => !(e.handle == d.handle)) } := rfl
    obtain ⟨hroom, hfull, hfree, hout⟩ := State.released_run hwT (releaseOf s p r .collision) r p.k
    set z := (w.send (releaseOf s p r .collision)).freeRun r p.k with hz
    have hdrives : z.hwy.drives = s.hwy.drives.filter (fun e => !(e.handle == d.handle)) := by
      rw [hz, State.freeRun, State.onRun_hwy, State.send_hwy, hwhwy]
    have hundriven : ∀ e ∈ z.hwy.drives, e.handle ≠ d.handle := fun e he => by
      rw [hdrives] at he
      simpa using (List.mem_filter.mp he).2
    have hzbut : sameButPaths s z :=
      sameButPaths.trans (t := w) ⟨rfl, rfl, rfl, rfl, rfl, rfl, rfl, rfl⟩
        ((w.sameButPaths_send _).trans (State.sameButPaths_setHwy _ _))
    have hzptb : z.ptb = s.ptb := (w.send_ptb (releaseOf s p r .collision) : _)
    rw [hexec, hcollide, State.collideCarrying_eq hwp hst hr]
    set q := p.collided w.self with hq
    have hqp : (z.setPath d.handle q).path d.handle = some q := State.path_setPath_self _ _ _
    have hother : sameOthers d.handle s (z.setPath d.handle q) :=
      (sameOthers_of_ptb _ hzptb).trans (State.sameOthers_setPath z _ _)
    have hzcompl : (z.setPath d.handle q).ptb.completions = s.ptb.completions :=
      (State.setPath_completions z _ _).trans (congrArg Ptb.completions hzptb)
    have hbut := hzbut.trans (z.sameButPaths_setPath d.handle q)
    by_cases ha : p.hw.attempt < 3
    · refine ⟨z.setPath d.handle q, q, congrArg Host.Outcome.next (if_pos ha), hqp, rfl, rfl, rfl, hfree, hout, hundriven, hroom, hfull,
        fun _ => ⟨by simp [hq, PathRec.collided, ha], ?_, hzcompl⟩, fun h3 => absurd ha (by omega),
        hother, hbut⟩
      simp only [hq, PathRec.collided, if_pos ha]
      rfl
    · obtain ⟨hcompl, hpath⟩ := State.post_unlisted hqp
        ((State.listed_congr hzcompl d.handle).trans hl) .stranded
      have hhwy := State.post_hwy (z.setPath d.handle q) d.handle .stranded
      refine ⟨(z.setPath d.handle q).post d.handle .stranded, _, congrArg Host.Outcome.next (if_neg ha), hpath, rfl, rfl, rfl,
        fun y hy hk ho => (State.entry_post _ _ _ y).trans (hfree y hy hk ho),
        fun y hy => (State.entry_post _ _ _ y).trans (hout y hy), hhwy ▸ hundriven,
        fun h => (congrArg Hwy.sendQ hhwy).trans (hroom h), fun h => (congrArg Hwy.sendQ hhwy).trans (hfull h),
        fun h3 => absurd h3 ha, fun _ => ⟨by simp [hq, PathRec.collided, ha], hcompl.trans ?_⟩,
        fun g hg => (State.path_post_ne _ hg _).trans (hother g hg), hbut.trans (State.sameButPaths_post _ _ _)⟩
      rw [hzcompl]

/-! ### Cells that are seen (R113, R118, R119, R138, R142) -/

/-- What a cell that is seen makes of its entry (R119). -/
def cellHeard (line : BitVec 42) : CellEntry → CellEntry :=
  match decodeHeader line with
  | some hd => CellEntry.seen hd.station hd.tag
  | none => CellEntry.silent

/-- What a record notes of a cell that is seen: the watch of a station that takes part, then the run it copies. -/
def PathRec.noted (takesPart : Bool) (x : Nat) (line : BitVec 42) (payload : List Byte) (p : PathRec) : PathRec :=
  (match decodeHeader line with
   | some hd => if takesPart then p.watchCell x hd else p
   | none => p).examine x line payload

theorem State.mapPaths_mapPaths (s : State) (f g : Nat → PathRec → PathRec) :
    (s.mapPaths f).mapPaths g = s.mapPaths (fun h p => g h (f h p)) := by
  simp only [State.mapPaths, Sparse.mapVals, State.setPtb_ptb, List.map_map]
  rfl

/-- With no claim queued, a cell that is seen changes its entry and what each record notes of it. -/
theorem State.seeCell_eq {s : State} (hm : ∀ m ∈ s.hwy.mons, m = .idle) (x : Nat) (line : BitVec 42)
    (payload : List Byte) :
    s.seeCell x line payload = (s.onRun x 1 (cellHeard line)).mapPaths (fun _ p => p.noted s.mayCreate x line payload) := by
  have hquiet := State.withdrawMeeting_of_unclaimed (State.claimQueued_of_idle hm) x 1
  unfold State.seeCell cellHeard PathRec.noted
  cases decodeHeader line with
  | none => rfl
  | some hd =>
    have hcreate : (s.onRun x 1 (CellEntry.seen hd.station hd.tag)).mayCreate = s.mayCreate := rfl
    simp only [hquiet, ite_self, hcreate]
    cases s.mayCreate with
    | false => rfl
    | true => exact State.mapPaths_mapPaths _ _ _

theorem PathRec.watchCell_of_not {x : Nat} {hd : Header} {p : PathRec}
    (h : ¬ (p.role = .sink ∧ p.state = .listening ∧ some hd.station = p.remote ∧ hd.tag = p.tag ∧ hd.index = x % p.k)) :
    p.watchCell x hd = p := if_neg h

/-- A record that watches for no such cell notes what the run it copies shows. -/
theorem PathRec.noted_of_not {b : Bool} {x : Nat} {line : BitVec 42} {payload : List Byte} {p : PathRec}
    (h : ∀ hd, decodeHeader line = some hd → ¬ (p.role = .sink ∧ p.state = .listening ∧ some hd.station = p.remote ∧
      hd.tag = p.tag ∧ hd.index = x % p.k)) : p.noted b x line payload = p.examine x line payload := by
  unfold PathRec.noted
  cases hd : decodeHeader line with
  | none => rfl
  | some d => cases b <;> simp [PathRec.watchCell_of_not (h d hd)]

theorem PathRec.examine_of_outside {x : Nat} {line : BitVec 42} {payload : List Byte} {p : PathRec}
    (h : inRun x p.k p.sk.copy = false) : p.examine x line payload = p := by
  unfold PathRec.examine
  split
  · rfl
  · rename_i r hr
    rw [if_neg]
    simpa [inRun, hr] using h

/-- What a receiving sink that copies its own run makes of a cell of it (R138). -/
theorem PathRec.examine_of_copy {x r : Nat} {line : BitVec 42} {payload : List Byte} {p : PathRec}
    (hcopy : p.sk.copy = some r) (hr : r ≤ x) (hk : x < r + p.k) (hrec : p.receives = true) (hcells : p.sk.cells = some r) :
    ∃ y, p.examine x line payload = { p with sk := y } ∧
      match classify p (x - r) line payload with
      | .good _ => y.missing = Sparse.put 0 p.sk.missing (x - r) 0 ∧ y.check = p.sk.check
      | .errored => y.missing = p.sk.missing ∧ y.check = satInc 255 p.sk.check
      | .missing => y.missing = (p.sk.miss (x - r)).missing ∧ y.check = p.sk.check := by
  have hcounts : (p.receives && p.sk.cells == some r) = true := by simp [hrec, hcells]
  unfold PathRec.examine
  simp only [hcopy, hr, hk, and_self, if_true, hcounts]
  cases classify p (x - r) line payload with
  | good c => exact ⟨_, rfl, rfl, rfl⟩
  | errored => exact ⟨_, rfl, rfl, rfl⟩
  | missing => exact ⟨_, rfl, rfl, rfl⟩

theorem classify_of_path {p : PathRec} {i : Nat} {line : BitVec 42} {payload : List Byte} {hd : Header}
    (hdec : decodeHeader line = some hd) (hpath : some hd.station = p.remote ∧ hd.tag = p.tag) :
    classify p i line payload =
      if hd.index = i then .good { code := hd.code, label := hd.label, payload := payload } else .errored := by
  simp only [classify, hdec, if_pos hpath]

theorem classify_of_other {p : PathRec} {i : Nat} {line : BitVec 42} {payload : List Byte} {hd : Header}
    (hdec : decodeHeader line = some hd) (hpath : ¬ (some hd.station = p.remote ∧ hd.tag = p.tag)) :
    classify p i line payload = .missing := by
  simp only [classify, hdec, if_neg hpath]

theorem classify_of_none {p : PathRec} {i : Nat} {line : BitVec 42} {payload : List Byte}
    (hdec : decodeHeader line = none) :
    classify p i line payload = if line = BitVec.allOnes 42 then .missing else .errored := by
  simp only [classify, hdec]

/-- A silent cell shows no header: its control code is none. -/
theorem decodeHeader_allOnes : decodeHeader (BitVec.allOnes 42) = none := by
  unfold decodeHeader
  dsimp only
  have hcode : codeOfHeader ((BitVec.allOnes 42).extractLsb' 15 3).toNat = none := rfl
  split
  · rw [hcode]
    rfl
  · rfl

/-- An entry that a valid header is seen on (R119). -/
theorem CellEntry.seen_spec {e : CellEntry} (ho : e.isOwn = false) (st t : Nat) :
    (∀ n rel, e = .held st t n rel → e.seen st t = .held st t 0 rel) ∧
    (∀ a acc rel, e = .reserved st t a acc rel → e.seen st t = .held st t 0 rel) ∧
    ((∀ n rel, e ≠ .held st t n rel) → (∀ a acc rel, e ≠ .reserved st t a acc rel) → e.seen st t = .held st t 0 false) := by
  refine ⟨fun n rel he => by simp [he, CellEntry.seen], fun a acc rel he => by simp [he, CellEntry.seen],
    fun hheld hres => ?_⟩
  cases e with
  | free => rfl
  | reserved h u a acc rel =>
    rw [CellEntry.seen, if_neg]
    rintro ⟨rfl, rfl⟩
    exact hres a acc rel rfl
  | held h u n rel =>
    rw [CellEntry.seen, if_neg]
    rintro ⟨rfl, rfl⟩
    exact hheld n rel rfl
  | ownReserved => cases ho
  | ownHeld => cases ho

/-- An entry whose cell is silent (R119). -/
theorem CellEntry.silent_spec (e : CellEntry) :
    (∀ h t n rel, e = .held h t n rel → e.silent = (if 32 ≤ n + 1 then .free else .held h t (n + 1) rel)) ∧
    ((∀ h t n rel, e ≠ .held h t n rel) → e.silent = e) := by
  refine ⟨fun h t n rel he => by rw [he]; rfl, fun hne => ?_⟩
  cases e with
  | held h t n rel => exact absurd rfl (hne h t n rel)
  | _ => rfl

/-- A change of one entry of the cell map alone. -/
theorem State.onRun_one {s : State} (hT : s.TablesOk) (x : Nat) (f : CellEntry → CellEntry) :
    (s.onRun x 1 f).entry x = f (s.entry x) :=
  State.entry_onRun_inside s x 1 f x (State.rising_cells hT) ⟨Nat.le_refl x, Nat.lt_succ_self x⟩

/-- What a receiving sink counts of a cell of the run it copies (R138). -/
theorem PathRec.noted_counts {b : Bool} {x r : Nat} {line : BitVec 42} {payload : List Byte} {p : PathRec}
    (hcopy : p.sk.copy = some r) (hr : r ≤ x) (hk : x < r + p.k) (hrec : p.receives = true)
    (hcells : p.sk.cells = some r) (hm : Sparse.rising p.sk.missing = true) :
    let q := p.noted b x line payload
    q = { p with sk := q.sk } ∧
    (∀ hd, decodeHeader line = some hd → some hd.station = p.remote ∧ hd.tag = p.tag →
      (hd.index = x - r → Sparse.get 0 q.sk.missing (x - r) = 0 ∧ q.sk.check = p.sk.check) ∧
      (hd.index ≠ x - r → q.sk.missing = p.sk.missing ∧ q.sk.check = min 255 (p.sk.check + 1))) ∧
    (∀ hd, decodeHeader line = some hd → ¬ (some hd.station = p.remote ∧ hd.tag = p.tag) →
      Sparse.get 0 q.sk.missing (x - r) = min 4 (Sparse.get 0 p.sk.missing (x - r) + 1) ∧ q.sk.check = p.sk.check) ∧
    (line = BitVec.allOnes 42 →
      Sparse.get 0 q.sk.missing (x - r) = min 4 (Sparse.get 0 p.sk.missing (x - r) + 1) ∧ q.sk.check = p.sk.check) ∧
    (decodeHeader line = none → line ≠ BitVec.allOnes 42 →
      q.sk.missing = p.sk.missing ∧ q.sk.check = min 255 (p.sk.check + 1)) := by
  intro q
  obtain ⟨_, hstate⟩ := PathRec.receives_iff.mp hrec
  have hq : q = p.examine x line payload :=
    PathRec.noted_of_not fun hd _ h => by rcases hstate with hs | hs <;> simp [hs] at h
  obtain ⟨y, hy, hcount⟩ := PathRec.examine_of_copy (line := line) (payload := payload) hcopy hr hk hrec hcells
  have hqy : q = { p with sk := y } := hq.trans hy
  have hsk : q.sk = y := by rw [hqy]
  have hmissed : (p.sk.miss (x - r)).missing = y.missing →
      Sparse.get 0 y.missing (x - r) = min 4 (Sparse.get 0 p.sk.missing (x - r) + 1) := fun h => by
    rw [← h, SnkHw.miss, Sparse.get_put_self 0 _ _ _ hm, satInc_eq_min]
  rw [hsk]
  refine ⟨hqy, fun hd hdec hpath => ⟨fun hi => ?_, fun hi => ?_⟩, fun hd hdec hpath => ?_, fun hones => ?_,
    fun hdec hones => ?_⟩
  · rw [classify_of_path hdec hpath, if_pos hi] at hcount
    exact ⟨by rw [hcount.1, Sparse.get_put_self 0 _ _ _ hm], hcount.2⟩
  · rw [classify_of_path hdec hpath, if_neg hi] at hcount
    exact ⟨hcount.1, hcount.2.trans (satInc_eq_min _ _)⟩
  · rw [classify_of_other hdec hpath] at hcount
    exact ⟨hmissed hcount.1.symm, hcount.2⟩
  · rw [classify_of_none (hones ▸ decodeHeader_allOnes), if_pos hones] at hcount
    exact ⟨hmissed hcount.1.symm, hcount.2⟩
  · rw [classify_of_none hdec, if_neg hones] at hcount
    exact ⟨hcount.1, hcount.2.trans (satInc_eq_min _ _)⟩

/-- Settles O30. -/
theorem cellMapFollowsCells : Obligations.CellMapFollowsCells := by
  refine ⟨fun h t a acc n => ⟨rfl, rfl, rfl, rfl, fun ha => if_neg (by omega), fun ha => if_pos ha⟩,
    fun s x h t hT hx he => ?_, fun s x h t rel hT hx he => ?_, fun s x line payload hT hx hdrives hmons ho => ?_⟩
  · refine ⟨_, if_neg (Nat.not_le.mpr hx), (State.onRun_one hT x _).trans ?_, State.sameOutside_onRun _ _ _ _,
      ⟨rfl, rfl, rfl, rfl, rfl, rfl, rfl, rfl⟩, rfl, rfl⟩
    rw [he]
    rfl
  · refine ⟨_, if_neg (Nat.not_le.mpr hx), (State.onRun_one hT x _).trans ?_, State.sameOutside_onRun _ _ _ _,
      ⟨rfl, rfl, rfl, rfl, rfl, rfl, rfl, rfl⟩, rfl, rfl⟩
    rw [he]
    rfl
  · set v := s.setHwy { s.hwy with passed := s.hwy.passed ||| BitVec.twoPow 1024 x } with hv
    have hexec : exec (.highwayCell x line 0 payload) s = .next
        ((v.onRun x 1 (cellHeard line)).mapPaths (fun _ p => p.noted v.mayCreate x line payload)) := by
      change execHighwayCell x line 0 payload s = _
      have hcell : ¬ Config.cells ≤ x := Nat.not_le.mpr hx
      rw [execHighwayCell, if_neg hcell]
      have hnone : v.hwy.drives.find? (fun d => decide (d.first ≤ x) && decide (x < d.first + d.k)) = none := by
        rw [show v.hwy.drives = [] from hdrives]
        rfl
      simp only [← hv, hnone, show line ^^^ 0 = line by simp]
      rw [State.seeCell_eq (s := v) hmons]
    have hentry : ((v.onRun x 1 (cellHeard line)).mapPaths (fun _ p => p.noted v.mayCreate x line payload)).entry x =
        cellHeard line (s.entry x) := State.onRun_one (s := v) hT x _
    have hpath (h : Nat) := State.path_mapPaths (v.onRun x 1 (cellHeard line))
      (fun _ p => p.noted v.mayCreate x line payload) h
    refine ⟨_, hexec, ⟨rfl, rfl, rfl, rfl, rfl, rfl, rfl, rfl⟩, State.sameOutside_onRun v x 1 _, ?_, fun hd hdec => ?_,
      fun hdec => ?_, rfl, rfl, ?_, fun h p hp hout hwatch => ?_, fun h p r hp hcopy hr hk hrec hcells hm => ?_⟩
    · change (s.hwy.passed ||| BitVec.twoPow 1024 x).getLsbD x = true
      simp [hx]
    · rw [hentry, show cellHeard line = CellEntry.seen hd.station hd.tag by simp only [cellHeard, hdec]]
      exact CellEntry.seen_spec ho hd.station hd.tag
    · rw [hentry, show cellHeard line = CellEntry.silent by simp only [cellHeard, hdec]]
      exact (s.entry x).silent_spec
    · simp only [State.handles, State.mapPaths, Sparse.mapVals, State.setPtb_ptb, List.map_map]
      rfl
    · rw [hpath, show (v.onRun x 1 (cellHeard line)).path h = some p from hp, Option.map_some,
        PathRec.noted_of_not hwatch, PathRec.examine_of_outside hout]
    · refine ⟨p.noted v.mayCreate x line payload, ?_, PathRec.noted_counts hcopy hr hk hrec hcells hm⟩
      rw [hpath, show (v.onRun x 1 (cellHeard line)).path h = some p from hp, Option.map_some]

end Sys2Proof.Machine

/-! ## Proofs: the last steps of the highway's counts, and the switches of a move -/

namespace Sys2Proof.Machine

/-! ### The cell map and the owner map, in any table -/

/-- An entry of a run that its change does not free is changed by itself, in any table. -/
theorem get_mapRun_of_ne {m : Sparse CellEntry} {first : Nat} {f : CellEntry → CellEntry} {x : Nat}
    (hf : f (Sparse.get .free m x) ≠ .free) : ∀ {n : Nat}, first ≤ x → x < first + n →
    Sparse.get .free (mapRun m first f n) x = f (Sparse.get .free m x)
  | 0, hx, hn => by omega
  | n + 1, hx, hn => by
    simp only [mapRun]
    by_cases he : x = first + n
    · subst he
      have hout := get_mapRun_outside m first f n (first + n) (by omega)
      rw [hout]
      exact Sparse.get_put_self_of_ne _ _ hf
    · rw [Sparse.get_put_ne _ _ _ he]
      exact get_mapRun_of_ne hf hx (by omega)

/-- Owning a group leaves every other berth. -/
theorem find_ownGroup_outside {m : Sparse Owner} {c b key : Nat} {o : Owner} : ∀ {k : Nat},
    (∀ i, i < k → key ≠ berthKey c (b + i)) → Sparse.find (ownGroup m c b o k) key = Sparse.find m key
  | 0, _ => rfl
  | k + 1, h => (Sparse.find_insert_ne _ _ (h k (Nat.lt_succ_self k))).trans
      (find_ownGroup_outside fun i hi => h i (Nat.lt_succ_of_lt hi))

/-- A berth outside a group has another key than the berths of the group. -/
theorem berthKey_ne {c b c' b' k i : Nat} (hb : b < 432) (hg : b' + k ≤ 432) (hi : i < k)
    (h : ¬ (c = c' ∧ b' ≤ b ∧ b < b' + k)) : berthKey c b ≠ berthKey c' (b' + i) := by
  unfold berthKey
  omega

/-- A group holds the owner that it was given. -/
theorem State.owner_setOwner_inside (s : State) {c b k h i : Nat} {r : BerthRole} (hi : i < k) :
    (s.setOwner c b k h r).owner c (b + i) = some { handle := h, role := r } := find_ownGroup hi

theorem State.owner_setOwner_outside (s : State) {c b k h c' b' : Nat} {r : BerthRole} (hb : b' < 432)
    (hg : b + k ≤ 432) (ho : ¬ (c' = c ∧ b ≤ b' ∧ b' < b + k)) :
    (s.setOwner c b k h r).owner c' b' = s.owner c' b' :=
  find_ownGroup_outside fun _ hi => berthKey_ne hb hg hi ho

/-- Two aligned groups that differ share no berth. -/
theorem groups_disjoint {c b c' b' k i : Nat} (hne : (c, b) ≠ (c', b')) (hb : b % k = 0) (hb' : b' % k = 0) (hi : i < k) :
    ¬ (c = c' ∧ b' ≤ b + i ∧ b + i < b' + k) := by
  rintro ⟨rfl, hle, hlt⟩
  obtain ⟨x, rfl⟩ := Nat.dvd_of_mod_eq_zero hb
  obtain ⟨y, rfl⟩ := Nat.dvd_of_mod_eq_zero hb'
  have hxy : x ≠ y := fun h => hne (by rw [h])
  rcases Nat.lt_or_gt_of_ne hxy with h | h
  · have := Nat.mul_le_mul_left k (Nat.succ_le_of_lt h)
    rw [Nat.mul_succ] at this
    omega
  · have := Nat.mul_le_mul_left k (Nat.succ_le_of_lt h)
    rw [Nat.mul_succ] at this
    omega

/-! ### The highway's counts (R101, R123, R129, R137, R141) -/

/-- A count that ends takes the record out of COLLIDED (R123). -/
theorem exec_backoffEnd {s : State} {h : Nat} {p : PathRec} (hp : s.path h = some p) (hb : p.hw.backoff = some 1) :
    exec (.backoffEnd h) s = .next (s.setPath h { p with
      state := (if p.state = .collided then .waiting else p.state), hw := { p.hw with backoff := none } }) := by
  have hmod := State.modHw_of_path hp (f := fun w => { w with backoff := none })
  refine congrArg Host.Outcome.next ?_
  simp only [hp, hb, State.backoffStep, Nat.le_refl, if_true]
  rw [hmod, State.request, State.modPath_of_path _ (State.path_setPath_self _ _ _), State.setPath_setPath]
  congr 1
  split <;> rfl

/-- The record of a claim that has expired (R129). -/
def PathRec.claimExpired (p : PathRec) (block : Bool) (own : Nat) : PathRec :=
  { p with state := if block then .blocked else .waiting
           hw := { p.hw with cells := none, backoff := if block then p.hw.backoff else some (own + 1) } }

/-- A claim that expires releases its run, leaves its record waiting or blocked, and posts CLAIM_EXPIRED. -/
theorem State.expireClaim_of_claiming {s : State} {c : Bound} {p : PathRec} (hp : s.path c.handle = some p)
    (hst : p.state = .claiming) (hm : c.move = false) :
    s.expireClaim c = ((((s.idleMonitors c.handle).sendRelease p c.first .withdrawn).freeRun c.first c.k).setPath c.handle
      (p.claimExpired s.hwy.block s.self)).post c.handle .claimExpired := by
  have hp1 : (s.idleMonitors c.handle).path c.handle = some p := hp
  have hp2 : (((s.idleMonitors c.handle).sendRelease p c.first .withdrawn).freeRun c.first c.k).path c.handle = some p := by
    simpa using hp
  have hblock : (((s.idleMonitors c.handle).sendRelease p c.first .withdrawn).freeRun c.first c.k).hwy.block = s.hwy.block := by
    rw [State.sendRelease_eq]
    simp [State.freeRun, State.send_hwy]
  have hself : (((s.idleMonitors c.handle).sendRelease p c.first .withdrawn).freeRun c.first c.k).self = s.self :=
    State.self_congr ((State.send_station (s.idleMonitors c.handle) _).2.1)
  simp only [State.expireClaim, hp1, hm, Bool.false_eq_true, if_false]
  rw [State.modHw_request hp2 hst, hblock, hself]
  rfl

/-- A source in its 64th clean multiframe (R137). -/
theorem exec_cleanCountExpiry {s : State} {h : Nat} {p : PathRec} (hp : s.path h = some p) (hc : p.hw.clean = 63)
    (hr : p.role = .source) (hl : p.live = true) (hrun : p.hw.cleanRun = true) :
    exec (.cleanCountExpiry h) s = .next (s.setPath h { p with hw := { p.hw with clean := 64, attempt := 0 } }) := by
  refine congrArg Host.Outcome.next ((State.modPath_of_path _ hp).trans (congrArg (s.setPath h) ?_))
  rw [if_pos (by omega), PathRec.cleanBoundary, if_pos ⟨hr, hl, hrun⟩]
  have hcount : satInc 64 p.hw.clean = 64 := by rw [hc]; rfl
  simp only [SrcHw.cleanStep, hcount, if_true]

/-- A sink that finds CELL_LOSS at a second boundary (R141). -/
theorem exec_cellLossFallback {s : State} {h : Nat} {p : PathRec} (hp : s.path h = some p) (hr : p.receives = true)
    (hl : p.sk.rawLoss = true) (hc : p.sk.loss = 1) (hb : p.bmove = none) (hm : p.sk.move = none)
    (hq : p.sk.status = none) : exec (.cellLossFallback h) s =
      .next ((s.setPath h { p with state := .listening, sk := p.sk.listening }).post h .sinkLost) := by
  refine congrArg Host.Outcome.next ?_
  have hlisten := State.sinkListens_of_unmoved hp hb hm .lost
  rw [if_neg (by simp [hq])] at hlisten
  simp [hp, hr, hl, hc, State.lossStep, hlisten]

theorem exec_warmingEnd {s : State} (hs : s.hwy.station = .warming) (hw : s.hwy.warm = 1) :
    exec .warmingEnd s = .next (s.setHwy { s.hwy with warm := 2, station := .joined }) :=
  congrArg Host.Outcome.next (if_pos ⟨hs, by omega⟩)

/-- What CLAIM_EXPIRY does to a claim in its last boundary (R129). -/
theorem claimExpires {s : State} {h : Nat} {p : PathRec} {c : Bound} {o : Monitor} (hT : s.TablesOk)
    (hm : s.hwy.mons = [.running c 1, o]) (ho : o.isFor h = false) (hc : c.handle = h) (hmove : c.move = false)
    (hp : s.path h = some p) (hst : p.state = .claiming) (hl : s.listed h = false) :
    ∃ (u : State) (q : PathRec), exec (.claimExpiry h) s = .next u ∧ u.path h = some q ∧ u.hwy.mons = [.idle, o] ∧
      q.hw.cells = none ∧ q.hw.attempt = p.hw.attempt ∧ q.hw.refusal = p.hw.refusal ∧
      (s.hwy.block = true → q.state = .blocked ∧ q.hw.backoff = p.hw.backoff) ∧
      (s.hwy.block = false → q.state = .waiting ∧ q.hw.backoff = some (s.self + 1)) ∧
      (∀ x, c.first ≤ x → x < c.first + c.k → (s.entry x).isOwn = true → u.entry x = .free) ∧
      sameOutside c.first c.k s u ∧
      (s.hasRoom = true → u.hwy.sendQ = s.hwy.sendQ ++ [freshMsg (releaseOf s p c.first .withdrawn)]) ∧
      u.ptb.completions = s.ptb.completions ++ [(h, .claimExpired)] ∧ sameOthers h s u ∧ sameButPaths s u := by
  subst hc
  set v := s.idleMonitors c.handle with hv
  set w := (v.sendRelease p c.first .withdrawn).freeRun c.first c.k with hw
  set x := w.setPath c.handle (p.claimExpired s.hwy.block s.self) with hx
  have hfind : s.monitorOf c.handle = some (.running c 1) := by
    simp [State.monitorOf, hm, Monitor.isFor, Monitor.info]
  have hexec : exec (.claimExpiry c.handle) s = .next (x.post c.handle .claimExpired) := by
    refine congrArg Host.Outcome.next ?_
    rw [hfind]
    exact (if_pos (Nat.le_refl 1)).trans (State.expireClaim_of_claiming hp hst hmove)
  have hmons : w.hwy.mons = [.idle, o] := by
    have : w.hwy.mons = v.hwy.mons := (v.send_station _).2.2.2
    exact this.trans (State.idleMonitors_mons hm rfl ho)
  have hT' : v.TablesOk := (State.Reworks.idleMonitors (H := fun _ => True) c.handle).keeps.tables hT
  have hxl : x.listed c.handle = false := (State.listed_congr (by simp [hx, hw, hv]) c.handle).trans hl
  obtain ⟨hcompl, hpath⟩ := State.post_unlisted (s := x) (State.path_setPath_self w c.handle _) hxl .claimExpired
  obtain ⟨hroom, _, hfree, hout⟩ := State.released_run hT' (releaseOf s p c.first .withdrawn) c.first c.k
  have hentry (y : Nat) : (x.post c.handle .claimExpired).entry y = w.entry y := State.entry_post _ _ _ _
  have hhwy : (x.post c.handle .claimExpired).hwy = w.hwy := State.post_hwy _ _ _
  refine ⟨_, _, hexec, hpath, (congrArg Hwy.mons hhwy).trans hmons, rfl, rfl, rfl, fun hb => ?_, fun hb => ?_,
    fun y hy hyk hown => (hentry y).trans (hfree y hy hyk hown), fun y hy => (hentry y).trans (hout y hy),
    fun hr => (congrArg Hwy.sendQ hhwy).trans (hroom hr), ?_, fun g hg => ?_, ?_⟩
  · simp [PathRec.claimExpired, hb]
  · simp [PathRec.claimExpired, hb]
  · rw [hcompl]
    simp [hx, hw, hv]
  · rw [State.path_post_ne _ hg, hx, State.path_setPath_ne _ _ hg]
    simp [hw, hv]
  · exact ((v.sameButPaths_send _).trans (t := v.sendRelease p c.first .withdrawn) (sameButPaths.trans (t := x)
      ⟨rfl, rfl, rfl, rfl, rfl, rfl, rfl, rfl⟩ (x.sameButPaths_post c.handle _)))

/-- What CELL_LOSS_FALLBACK does at the second boundary that finds CELL_LOSS (R141). -/
theorem cellLossFalls {s : State} {h : Nat} {p : PathRec} (hp : s.path h = some p) (hr : p.receives = true)
    (hl : p.sk.rawLoss = true) (hc : p.sk.loss = 1) (hb : p.bmove = none) (hm : p.sk.move = none)
    (hq : p.sk.status = none) (hlisted : s.listed h = false) :
    ∃ (u : State) (q : PathRec), exec (.cellLossFallback h) s = .next u ∧ u.path h = some q ∧ q.state = .listening ∧
      q.sk = p.sk.listening ∧ u.ptb.completions = s.ptb.completions ++ [(h, .sinkLost)] ∧ u.hwy = s.hwy ∧
      sameOthers h s u ∧ sameButPaths s u := by
  set x := s.setPath h { p with state := .listening, sk := p.sk.listening } with hx
  obtain ⟨hcompl, hpath⟩ := State.post_unlisted (s := x) (State.path_setPath_self s h _) hlisted .sinkLost
  refine ⟨_, _, exec_cellLossFallback hp hr hl hc hb hm hq, hpath, rfl, rfl, hcompl, State.post_hwy _ _ _, fun g hg => ?_,
    sameButPaths.trans (s.sameButPaths_setPath h _) (x.sameButPaths_post h _)⟩
  rw [State.path_post_ne _ hg, State.path_setPath_ne _ _ hg]

/-- What the claimant's effective boundary does to the cell map (R133). -/
theorem State.claimEffective_entries {s : State} {h x : Nat} {p : PathRec} (hp : s.path h = some p)
    (hst : p.state = .claiming) (ha : p.hw.acceptHeard = true) (hx : p.hw.cells = some x) :
    sameOutside x p.k s (s.claimEffective h) ∧
    ∀ y t a, x ≤ y → y < x + p.k → s.entry y = .ownReserved a t → (s.claimEffective h).entry y = .ownHeld a t := by
  have hentry (y : Nat) : (s.claimEffective h).entry y = (s.holdRun x p.k).entry y := by
    simp only [State.claimEffective, hp, hst, ha, hx]
    simp
  refine ⟨fun y hy => (hentry y).trans (State.entry_onRun_outside _ _ _ _ _ hy), fun y t a hy hyk he => ?_⟩
  have he' : Sparse.get .free s.hwy.cells y = .ownReserved a t := he
  refine (hentry y).trans ((get_mapRun_of_ne ?_ hy hyk).trans ?_) <;> rw [he']
  exact fun h => nomatch h

/-! ### The switches of a move (R148, R149, R153, R154) -/

/-- The switch of a move of berths, at the boundary at which the guard count reaches G (R149). -/
theorem berthMoveSwitches {s : State} {h : Nat} {p : PathRec} {m : BerthMove} (hp : s.path h = some p)
    (hm : p.bmove = some m) (hph : m.phase = .bridge) (hg : m.guard + 1 = s.cbl.guard)
    (hne : (m.oldC, m.oldB) ≠ (m.newC, m.newB)) (hold : m.oldB % p.k = 0) (hnew : m.newB % p.k = 0)
    (hold' : m.oldB + p.k ≤ 432) (hnew' : m.newB + p.k ≤ 432) :
    ∃ u : State, exec (.berthMoveSwitch h) s = .next u ∧
      u.path h = some { p with sink := some (.carrier m.newC m.newB),
                               bmove := some { m with phase := .retiring, guard := m.guard + 1 } } ∧
      (∀ i, i < p.k → u.owner m.newC (m.newB + i) = some { handle := h, role := .primary } ∧
        u.owner m.oldC (m.oldB + i) = some { handle := h, role := .retiring }) ∧
      (∀ c b, b < 432 → ¬ (c = m.newC ∧ m.newB ≤ b ∧ b < m.newB + p.k) →
        ¬ (c = m.oldC ∧ m.oldB ≤ b ∧ b < m.oldB + p.k) → u.owner c b = s.owner c b) ∧
      sameOthers h s u ∧ u.hwy = s.hwy ∧ u.ftm = s.ftm ∧ u.clp = s.clp ∧ u.crx = s.crx ∧ u.fil = s.fil ∧
      u.cnd = s.cnd ∧ u.cmd = s.cmd ∧ u.pending = s.pending := by
  set v := s.setOwner m.oldC m.oldB p.k h .retiring with hv
  have hrun : exec (.berthMoveSwitch h) s = .next (s.berthSwitch h p m) := by
    refine congrArg Host.Outcome.next ?_
    simp only [hp, hm]
    exact if_pos ⟨hph, by omega⟩
  refine ⟨_, hrun, State.path_setPath_self _ _ _, fun i hi => ⟨v.owner_setOwner_inside hi, ?_⟩, fun c b hb ho ho' => ?_,
    fun g hg => State.path_setPath_ne _ _ hg, rfl, rfl, rfl, rfl, rfl, rfl, rfl, rfl⟩
  · exact (v.owner_setOwner_outside (by omega) hnew' (groups_disjoint hne hold hnew hi)).trans
      (s.owner_setOwner_inside hi)
  · exact (v.owner_setOwner_outside hb hnew' ho).trans (s.owner_setOwner_outside hb hold' ho')

theorem exec_cellMoveSwitch {s : State} {h : Nat} {p : PathRec} {m : CellMove} (hp : s.path h = some p)
    (hm : p.hw.move = some m) (hph : m.phase = .bridge) (hg : m.guard + 1 = s.cbl.guard) :
    exec (.cellMoveSwitch h) s = .next (s.setPath h { p with hw :=
      { p.hw with move := some { m with phase := .retiring, guard := m.guard + 1 } } }) := by
  refine congrArg Host.Outcome.next ?_
  simp only [hp, hm]
  exact (if_pos ⟨hph, by omega⟩).trans (State.modHw_of_path hp _)

theorem exec_sinkCellMoveSwitch {s : State} {h : Nat} {p : PathRec} {m : SinkMove} (hp : s.path h = some p)
    (hm : p.sk.move = some m) (hph : m.status = .bridging) (hg : m.guard + 1 = s.cbl.guard) :
    exec (.sinkCellMoveSwitch h) s = .next (s.setPath h { p with sk :=
      { p.sk with cells := some m.new, missing := [], check := 0, loss := 0, move := none } }) := by
  refine congrArg Host.Outcome.next ?_
  simp only [hp, hm]
  exact (if_pos ⟨hph, by omega⟩).trans (State.modSk_of_path hp _)

/-- A pending move of berths fails where another path owns a new berth (R148). -/
theorem State.beginBerths_of_busy {s : State} {h : Nat} {p : PathRec} {m : BerthMove} (hp : s.path h = some p)
    (hm : p.bmove = some m) (hph : m.phase = .pending) (hst : p.state = .moving)
    (ho : ∃ i o, i < p.k ∧ s.owner m.newC (m.newB + i) = some o ∧ o.handle ≠ h) :
    s.beginBerths h =
      (s.setPath h { p with bmove := none, state := p.liveState }).post h (.moveFailed .endpointBusy) := by
  have hany : s.anyOwner m.newC m.newB p.k (fun o => o.handle != h) = true := by
    obtain ⟨i, o, hi, ho, hne⟩ := ho
    exact (State.anyOwner_iff ..).mpr ⟨i, o, hi, ho, by simpa using hne⟩
  have hreq : (s.setPath h { p with bmove := none }).request h .moving p.liveState =
      s.setPath h { p with bmove := none, state := p.liveState } := by
    rw [State.request_of_path (p := { p with bmove := none }) (State.path_setPath_self _ _ _) hst, State.setPath_setPath]
  simp only [State.beginBerths, hp, hm, hph, hany, if_true, hreq]

/-- A pending move of berths whose new berths are free begins its bridge (R148). -/
theorem State.beginBerths_of_free {s : State} {h : Nat} {p : PathRec} {m : BerthMove} (hp : s.path h = some p)
    (hm : p.bmove = some m) (hph : m.phase = .pending)
    (ho : ∀ i o, i < p.k → s.owner m.newC (m.newB + i) = some o → o.handle = h) :
    s.beginBerths h = (s.setOwner m.newC m.newB p.k h .bridge).setPath h
      { p with bmove := some { m with phase := .bridge, guard := 0 } } := by
  have hany : ¬ s.anyOwner m.newC m.newB p.k (fun o => o.handle != h) = true := by
    rw [State.anyOwner_iff]
    rintro ⟨i, o, hi, ho', hne⟩
    simp [ho i o hi ho'] at hne
  simp only [State.beginBerths, hp, hm, hph, if_true, if_neg hany]

end Sys2Proof.Machine

/-! ## Proofs: what a frame start leaves as it was -/

namespace Sys2Proof.Machine

/-! ### States that agree on what a frame start does not touch -/

/-- The blocks and tables that no part of a frame start changes. -/
structure State.SameFixed (s t : State) : Prop where
  blocks : t.fil = s.fil ∧ t.cmd = s.cmd ∧ t.pending = s.pending ∧ t.clp.sizing = s.clp.sizing ∧ t.crx.scan = s.crx.scan
  cbl : t.cbl.holdoff = s.cbl.holdoff ∧ t.cbl.guard = s.cbl.guard
  hwy : t.hwy.number = s.hwy.number ∧ t.hwy.timeout = s.hwy.timeout ∧ t.hwy.block = s.hwy.block
  ptb : t.ptb.feeds = s.ptb.feeds ∧ t.ptb.rxBind = s.ptb.rxBind ∧ t.ptb.txBind = s.ptb.txBind
  handles : Sparse.rising s.ptb.paths = true → t.handles = s.handles ∧ Sparse.rising t.ptb.paths = true

/-- The station's state is the same: its state of joining, its warm count, and its doubt of the timing. -/
def Hwy.SameStation (w x : Hwy) : Prop := x.station = w.station ∧ x.warm = w.warm ∧ x.doubt = w.doubt

/-- The frame timer and the station are the same too. -/
structure State.SameStation (s t : State) : Prop extends s.SameFixed t where
  ftm : t.ftm = s.ftm
  station : s.hwy.SameStation t.hwy

/-- A record without what a frame gathers and hands on in it. -/
def PathRec.steady (p : PathRec) : PathRec :=
  { p with
    carry := [], labelBuf := [], fil := none, srcBadSeen := false, lmSeen := false, slipSeen := false,
    place := .frameStart, liveF := false, squelchF := false, begun := false, decided := false
    hw := { p.hw with content := none }
    sk := { p.sk with copy := none, rxCells := [], maintSeen := false, watchSeen := [] }
    sq := { p.sq with onSeen := false } }

/-- The completion list is the same too, and each record but for what a frame gathers. -/
structure State.SameSteady (s t : State) : Prop extends s.SameStation t where
  completions : t.ptb.completions = s.ptb.completions
  records : ∀ h, (t.path h).map PathRec.steady = (s.path h).map PathRec.steady

theorem State.SameFixed.refl (s : State) : s.SameFixed s :=
  ⟨⟨rfl, rfl, rfl, rfl, rfl⟩, ⟨rfl, rfl⟩, ⟨rfl, rfl, rfl⟩, ⟨rfl, rfl, rfl⟩, fun h => ⟨rfl, h⟩⟩

theorem State.SameFixed.trans {s t u : State} (h : s.SameFixed t) (h' : t.SameFixed u) : s.SameFixed u := by
  obtain ⟨h1, h2, h3, h4, h5⟩ := h
  obtain ⟨h1', h2', h3', h4', h5'⟩ := h'
  refine ⟨by simp_all, by simp_all, by simp_all, by simp_all, fun hr => ?_⟩
  obtain ⟨he, hr'⟩ := h5 hr
  obtain ⟨he', hr''⟩ := h5' hr'
  exact ⟨he'.trans he, hr''⟩

theorem State.SameStation.refl (s : State) : s.SameStation s := ⟨.refl s, rfl, rfl, rfl, rfl⟩

theorem State.SameStation.trans {s t u : State} (h : s.SameStation t) (h' : t.SameStation u) : s.SameStation u := by
  obtain ⟨hfixed, hftm, hs, hw, hd⟩ := h
  obtain ⟨hfixed', hftm', hs', hw', hd'⟩ := h'
  exact ⟨hfixed.trans hfixed', hftm'.trans hftm, hs'.trans hs, hw'.trans hw, hd'.trans hd⟩

theorem State.SameSteady.refl (s : State) : s.SameSteady s := ⟨.refl s, rfl, fun _ => rfl⟩

theorem State.SameSteady.trans {s t u : State} (h : s.SameSteady t) (h' : t.SameSteady u) : s.SameSteady u :=
  ⟨h.toSameStation.trans h'.toSameStation, h'.completions.trans h.completions,
    fun g => (h'.records g).trans (h.records g)⟩

theorem State.Reworks.sameStation {H : Nat → Prop} {s t : State} (h : State.Reworks H s t) : s.SameStation t := by
  obtain ⟨⟨hftm, hclp, hcrx, hfil, _, hcmd, hpending⟩, ⟨hholdoff, hguard, _⟩, ⟨hs, hn, hw, hd, ht, hb⟩, hptb⟩ := h.sameBlocks
  exact ⟨⟨⟨hfil, hcmd, hpending, by rw [hclp], by rw [hcrx]⟩, ⟨hholdoff, hguard⟩, ⟨hn, ht, hb⟩, hptb, h.handles_eq⟩,
    hftm, hs, hw, hd⟩

/-! ### Parts of a frame start -/

theorem State.handles_mapPaths (s : State) (f : Nat → PathRec → PathRec) : (s.mapPaths f).handles = s.handles :=
  Sparse.keys_mapVals f s.ptb.paths

theorem State.rising_mapPaths (s : State) (f : Nat → PathRec → PathRec) (h : Sparse.rising s.ptb.paths = true) :
    Sparse.rising (s.mapPaths f).ptb.paths = true := Sparse.rising_mapVals f s.ptb.paths h


theorem State.SameSteady.setClp {s : State} {x : Clp} (hx : x.sizing = s.clp.sizing) : s.SameSteady (s.setClp x) :=
  { State.SameSteady.refl s with blocks := ⟨rfl, rfl, rfl, hx, rfl⟩ }

theorem State.SameSteady.setTx (s : State) (q : Nat) (t : TxSide) : s.SameSteady (s.setTx q t) := .setClp rfl

theorem State.SameSteady.setRx (s : State) (q : Nat) (r : RxSide) : s.SameSteady (s.setRx q r) := .setClp rfl

theorem State.SameSteady.setCarrier (s : State) (c : Nat) (x : Carrier) : s.SameSteady (s.setCarrier c x) :=
  { State.SameSteady.refl s with blocks := ⟨rfl, rfl, rfl, rfl, rfl⟩ }

theorem State.SameSteady.takePlan (s : State) : s.SameSteady s.takePlan :=
  { State.SameSteady.refl s with cbl := ⟨rfl, rfl⟩ }

theorem State.SameSteady.takeDrives (s : State) : s.SameSteady s.takeDrives :=
  { State.SameSteady.refl s with hwy := ⟨rfl, rfl, rfl⟩, station := ⟨rfl, rfl, rfl⟩ }

theorem State.SameSteady.mapPaths {s : State} {f : Nat → PathRec → PathRec}
    (hf : ∀ h p, s.path h = some p → (f h p).steady = p.steady) : s.SameSteady (s.mapPaths f) where
  toSameStation := { State.SameStation.refl s with
    handles := fun h => ⟨Sparse.keys_mapVals _ _, Sparse.rising_mapVals _ _ h⟩ }
  completions := rfl
  records h := by
    rw [State.path_mapPaths]
    cases hp : s.path h with
    | none => rfl
    | some p => exact congrArg some (hf h p hp)

theorem State.SameSteady.setPath {s : State} {h : Nat} {p q : PathRec} (hp : s.path h = some p)
    (hq : q.steady = p.steady) : s.SameSteady (s.setPath h q) where
  toSameStation := { State.SameStation.refl s with
    handles := fun hr => ⟨State.handles_setPath hr hp, Sparse.rising_insert _ _ _ hr⟩ }
  completions := rfl
  records g := by
    by_cases hg : g = h
    · subst hg
      rw [State.path_setPath_self, hp]
      exact congrArg some hq
    · rw [State.path_setPath_ne _ _ hg]

theorem State.SameSteady.foldl {α : Type} {f : State → α → State} {l : List α}
    (hf : ∀ (u : State) (a : α), u.SameSteady (f u a)) (s : State) : s.SameSteady (l.foldl f s) := by
  induction l generalizing s with
  | nil => exact .refl s
  | cons a l ih => exact (hf s a).trans (ih (f s a))

theorem State.SameSteady.forPaths {f : Nat → State → State} (hf : ∀ h (u : State), u.SameSteady (f h u)) (s : State) :
    s.SameSteady (s.forPaths f) := .foldl (fun u h => hf h u) s

theorem State.SameSteady.upTo {f : Nat → State → State} (n : Nat) (hf : ∀ i (u : State), u.SameSteady (f i u))
    (s : State) : s.SameSteady (s.upTo n f) := .foldl (fun u i => hf i u) s

theorem PathRec.writeLabel_steady (n : Nat) (p : PathRec) : (p.writeLabel n).steady = p.steady := by
  unfold PathRec.writeLabel
  split <;> rfl

theorem State.SameSteady.sinkContent (h : Nat) (s : State) : s.SameSteady (State.sinkContent h s) := by
  unfold State.sinkContent
  split
  · exact .refl s
  · rename_i p hp
    split
    · rw [State.carryJoin, State.modPath_of_path _ hp]
      exact .setPath hp rfl
    · exact .refl s

theorem State.SameSteady.clientTake (s : State) (q h : Nat) : s.SameSteady (s.clientTake q h) := by
  unfold State.clientTake
  split
  · exact .refl s
  · rename_i p hp
    have hset : s.SameSteady (s.setPath h { p with carry := (takeCarry (.client q) p.carry).2 }) := .setPath hp rfl
    dsimp only
    split
    · exact hset.trans (.setTx _ _ _)
    · exact hset

theorem State.SameSteady.clientFrame (s : State) (q : Nat) : s.SameSteady (s.clientFrame q) := by
  unfold State.clientFrame
  split
  · exact .setTx _ _ _
  · split
    · exact .setTx _ _ _
    · split
      · split
        · exact .clientTake _ _ _
        · split
          · exact .refl s
          · exact .setTx _ _ _
      · dsimp only
        split
        · exact (State.SameSteady.setTx _ _ _).trans (.clientTake _ _ _)
        · exact .setTx _ _ _

theorem State.SameSteady.owesCapture (s : State) (p : PathRec) : s.SameSteady (s.owesCapture p) := by
  unfold State.owesCapture
  split
  · split
    · exact .setRx _ _ _
    · exact .refl s
  · exact .refl s

/-! ### The frame that begins -/

/-- The frame that begins, up to the runs that HWY drives: the contents handed on, and the client sides. -/
def State.handed (s : State) (n : Nat) : State :=
  ((((s.mapPaths (fun _ p => { p.writeLabel n with liveF := p.live, squelchF := p.sq.on })).takePlan.settleDebts.forPaths
    State.sinkContent).upTo 32 (fun q s => s.clientFrame q)).forPaths
    (fun h s => match s.path h with | some p => s.owesCapture p | none => s))

/-- A source that is not delivering leaves its mark on the path frame (R66). -/
def PathRec.noteDefect (p : PathRec) : PathRec :=
  { p with fil := p.fil.map (fun f => { f with defectSeen := f.defectSeen || p.srcBadSeen }) }

/-- The records, the ports and the carriers as the frame begins. -/
def State.freshened (s : State) : State :=
  (((s.mapPaths (fun _ p => s.freshPath p)).mapPaths (fun _ p => p.noteDefect)).upTo 32
    (fun q s => s.setRx q ((s.rx q).fresh (s.rxPath q).isSome))).upTo 4 (fun c s => s.setCarrier c (s.carrier c).fresh)

theorem State.beginFrame_eq (s : State) (n : Nat) : s.beginFrame n = (s.handed n).takeDrives.freshened := by
  unfold State.beginFrame State.handed State.freshened PathRec.noteDefect
  dsimp only <;> rfl

theorem State.handed_sameSteady (s : State) (n : Nat) : s.SameSteady (s.handed n) := by
  unfold State.handed
  refine .trans ?_ (.forPaths (fun h u => ?_) _)
  · refine .trans ?_ (.upTo _ (fun q u => .clientFrame u q) _)
    refine .trans ?_ (.forPaths .sinkContent _)
    refine .trans (.mapPaths fun _ p _ => ?_) (.trans (.takePlan _) (.mapPaths fun _ _ _ => rfl))
    exact p.writeLabel_steady n
  · split
    · exact .owesCapture u _
    · exact .refl u

/-- Marks of ports and carriers leave the path table and HWY. -/
theorem State.upTo_blocks {f : Nat → State → State} (n : Nat) (s : State)
    (hf : ∀ i u, (f i u).ptb = u.ptb ∧ (f i u).hwy = u.hwy) : (s.upTo n f).ptb = s.ptb ∧ (s.upTo n f).hwy = s.hwy := by
  unfold State.upTo
  induction List.range n generalizing s with
  | nil => exact ⟨rfl, rfl⟩
  | cons i l ih => exact ⟨(ih (f i s)).1.trans (hf i s).1, (ih (f i s)).2.trans (hf i s).2⟩

/-- The marks leave HWY, and the path table but for the records as the frame begins. -/
theorem State.freshened_blocks (s : State) : s.freshened.hwy = s.hwy ∧
    s.freshened.ptb = ((s.mapPaths (fun _ p => s.freshPath p)).mapPaths (fun _ p => p.noteDefect)).ptb := by
  unfold State.freshened
  set v := (s.mapPaths (fun _ p => s.freshPath p)).mapPaths (fun _ p => p.noteDefect)
  have hports := State.upTo_blocks (f := fun q s => s.setRx q ((s.rx q).fresh (s.rxPath q).isSome)) 32 v
    fun _ _ => ⟨rfl, rfl⟩
  have hcarriers := State.upTo_blocks (f := fun c s => s.setCarrier c (s.carrier c).fresh) 4
    (v.upTo 32 (fun q s => s.setRx q ((s.rx q).fresh (s.rxPath q).isSome))) fun _ _ => ⟨rfl, rfl⟩
  exact ⟨hcarriers.2.trans hports.2, hcarriers.1.trans hports.1⟩

theorem State.path_freshened (s : State) (h : Nat) :
    s.freshened.path h = (s.path h).map (fun p => (s.freshPath p).noteDefect) := by
  rw [State.path_congr s.freshened_blocks.2, State.path_mapPaths, State.path_mapPaths, Option.map_map]
  rfl

theorem PathRec.steady_noteDefect (p : PathRec) : p.noteDefect.steady = p.steady := rfl

theorem State.steady_freshPath (s : State) (p : PathRec) : (s.freshPath p).steady = p.steady := rfl

theorem State.freshened_sameSteady (s : State) : s.SameSteady s.freshened := by
  unfold State.freshened
  refine .trans ?_ (.upTo _ (fun c u => .setCarrier u c _) _)
  refine .trans ?_ (.upTo _ (fun q u => .setRx u q _) _)
  exact .trans (.mapPaths fun _ p _ => s.steady_freshPath p) (.mapPaths fun _ p _ => p.steady_noteDefect)

theorem State.beginFrame_sameSteady (s : State) (n : Nat) : s.SameSteady (s.beginFrame n) := by
  rw [State.beginFrame_eq]
  exact (s.handed_sameSteady n).trans ((State.SameSteady.takeDrives _).trans (State.freshened_sameSteady _))

@[simp] theorem State.path_takeDrives (s : State) (h : Nat) : s.takeDrives.path h = s.path h := rfl

theorem PathRec.fields_of_steady {p q : PathRec} (h : q.steady = p.steady) : q.tag = p.tag ∧ q.role = p.role ∧ q.k = p.k ∧
    q.state = p.state ∧ q.live = p.live ∧ q.receives = p.receives ∧ q.hw.cells = p.hw.cells ∧ q.hw.move = p.hw.move ∧
    q.sk.cells = p.sk.cells := by
  have hrole : q.role = p.role := (congrArg PathRec.role h :)
  have hstate : q.state = p.state := (congrArg PathRec.state h :)
  have hlive : q.live = p.live := by rw [PathRec.live, PathRec.live, hrole, hstate]
  exact ⟨(congrArg PathRec.tag h :), hrole, (congrArg PathRec.k h :), hstate, hlive,
    by rw [PathRec.receives, PathRec.receives, hrole, hlive], (congrArg (fun p => p.hw.cells) h :),
    (congrArg (fun p => p.hw.move) h :), (congrArg (fun p => p.sk.cells) h :)⟩

/-- A record as the frame begins: its liveness in the frame, and the run that a receiving sink copies. -/
theorem State.liveF_freshPath (s : State) (p : PathRec) : (s.freshPath p).noteDefect.liveF = p.live ∧
    (s.freshPath p).noteDefect.sk.copy = if p.receives then p.sk.cells else none := ⟨rfl, rfl⟩

/-- The frame that begins gives a live record its place in it, and a receiving sink the run it copies. -/
theorem State.path_beginFrame {s : State} {h : Nat} {r : PathRec} (hr : s.path h = some r) (n : Nat) :
    ∃ q, (s.beginFrame n).path h = some q ∧ q.steady = r.steady ∧ q.liveF = r.live ∧
      q.sk.copy = (if r.receives then r.sk.cells else none) := by
  have hsame := (s.handed_sameSteady n).records h
  rw [hr] at hsame
  obtain ⟨v, hv, hvr⟩ := Option.map_eq_some_iff.mp hsame
  obtain ⟨_, _, _, _, hlive, hreceives, _, _, hcells⟩ := PathRec.fields_of_steady hvr
  rw [State.beginFrame_eq, State.path_freshened, State.path_takeDrives, hv]
  obtain ⟨hl, hc⟩ := State.liveF_freshPath (s.handed n).takeDrives v
  exact ⟨_, rfl, hvr, hl.trans hlive, hc.trans (by rw [hreceives, hcells])⟩

/-! ### The frame that ends, and the frame start -/

theorem State.endFrame_sameStation (s : State) : s.SameStation s.endFrame :=
  .trans (State.Reworks.endRecords s).sameStation
    { State.SameStation.refl _ with blocks := ⟨rfl, rfl, rfl, rfl, rfl⟩ }

theorem State.ageQueue_sameStation (s : State) : s.SameStation s.ageQueue :=
  State.Reworks.ageQueue.sameStation

/-- The timer after a boundary: the multiframe count of a started station advances, and the indication that a
realignment owes is given (R8, R9). -/
def Ftm.atBoundary (started : Bool) (f : Ftm) : Ftm :=
  { f with mfCount := if started then (f.mfCount + 1) % 65536 else f.mfCount
           restoreDue := f.restoreDue && !(f.timer == .tracking) }

theorem State.countMultiframe_fixed (s : State) : s.SameFixed s.countMultiframe ∧ s.countMultiframe.hwy = s.hwy ∧
    s.countMultiframe.ptb = s.ptb ∧ s.countMultiframe.cbl = s.cbl ∧ s.countMultiframe.ftm =
      { s.ftm with mfCount := if s.cmd.started then (s.ftm.mfCount + 1) % 65536 else s.ftm.mfCount } := by
  unfold State.countMultiframe
  dsimp only
  rw [State.setCnd_cmd]
  cases s.cmd.started <;> exact ⟨{ State.SameFixed.refl s with }, rfl, rfl, rfl, rfl⟩

/-- The warm count changes HWY alone, and no silent station. -/
theorem State.warmed_hwy (s : State) : ∃ x : Hwy, s.warmed = s.setHwy x ∧ x.number = s.hwy.number ∧
    x.timeout = s.hwy.timeout ∧ x.block = s.hwy.block ∧ x.doubt = s.hwy.doubt ∧ x.mons = s.hwy.mons ∧
    (s.hwy.station ≠ .warming → x = s.hwy) ∧ (s.hwy.station = .warming → x.station = .warming ∨ x.station = .joined) := by
  unfold State.warmed
  split
  · rename_i hs
    split
    · exact ⟨_, rfl, rfl, rfl, rfl, rfl, rfl, fun h => absurd hs h, fun _ => .inr rfl⟩
    · exact ⟨_, rfl, rfl, rfl, rfl, rfl, rfl, fun h => absurd hs h, fun _ => .inl hs⟩
  · exact ⟨s.hwy, rfl, rfl, rfl, rfl, rfl, rfl, fun _ => rfl, fun h => absurd h ‹_›⟩

/-- A timing-restored indication ends the doubt, and takes a MUTE station to WARMING. -/
theorem State.timingRestored_hwy (s : State) : ∃ x : Hwy, s.timingRestored = s.setHwy x ∧ x.number = s.hwy.number ∧
    x.timeout = s.hwy.timeout ∧ x.block = s.hwy.block ∧ x.mons = s.hwy.mons ∧ x.doubt = false ∧
    (s.hwy.station = .mute → x.station = .warming ∧ x.warm = 0) ∧
    (s.hwy.station ≠ .mute → x.station = s.hwy.station ∧ x.warm = s.hwy.warm) := by
  unfold State.timingRestored
  split
  · exact ⟨_, rfl, rfl, rfl, rfl, rfl, rfl, fun _ => ⟨rfl, rfl⟩, fun h => absurd ‹_› h⟩
  · exact ⟨_, rfl, rfl, rfl, rfl, rfl, rfl, fun h => absurd h ‹_›, fun _ => ⟨rfl, rfl⟩⟩

/-- The indication that a realignment owes is due at a boundary in TRACKING (R8). -/
def Ftm.restores (f : Ftm) : Bool := f.restoreDue && f.timer == .tracking

theorem State.restored_eq (s : State) : s.restored =
    if s.ftm.restores then (s.setFtm { s.ftm with restoreDue := false }).timingRestored else s := rfl

/-- The timer after the indication: it is owed no longer. -/
def Ftm.settled (f : Ftm) : Ftm := { f with restoreDue := f.restoreDue && !(f.timer == .tracking) }

theorem Ftm.settled_of_due {f : Ftm} (h : f.restores = true) : f.settled = { f with restoreDue := false } := by
  have ht : (f.timer == .tracking) = true := by
    unfold Ftm.restores at h
    simp_all
  simp [Ftm.settled, ht]

theorem Ftm.settled_of_not_due {f : Ftm} (h : f.restores = false) : f.settled = f := by
  have : (f.restoreDue && !(f.timer == .tracking)) = f.restoreDue := by
    unfold Ftm.restores at h
    cases hd : f.restoreDue <;> simp_all
  rw [Ftm.settled, this]

/-- What the station's part of a boundary makes of the station. -/
structure Hwy.AtBoundary (due : Bool) (w x : Hwy) : Prop where
  mons : x.mons = w.mons
  fixed : x.number = w.number ∧ x.timeout = w.timeout ∧ x.block = w.block
  restored : due = true → x.doubt = false ∧ (w.station = .mute → x.station = .warming ∧ x.warm = 0)
  doubt : due = false → x.doubt = w.doubt
  silent : due = false → w.station ≠ .warming → x.station = w.station ∧ x.warm = w.warm
  unstarted : w.station = .unstarted → x.station = .unstarted ∧ x.warm = w.warm
  awake : w.station = .warming ∨ w.station = .joined → x.station = .warming ∨ x.station = .joined

theorem State.warmed_atBoundary (s : State) : ∃ x : Hwy, s.warmed = s.setHwy x ∧ s.hwy.AtBoundary false x := by
  obtain ⟨x, hx, hn, ht, hb, hd, hm, hkeep, hwarm⟩ := s.warmed_hwy
  refine ⟨x, hx, hm, ⟨hn, ht, hb⟩, (fun h => nomatch h), fun _ => hd, fun _ hs => ?_, fun hs => ?_, fun hs => ?_⟩
  · rw [hkeep hs]
    exact ⟨rfl, rfl⟩
  · rw [hkeep (by simp [hs])]
    exact ⟨hs, rfl⟩
  · rcases hs with hs | hs
    · exact hwarm hs
    · rw [hkeep (by simp [hs])]
      exact .inr hs

/-- The station's part of a boundary changes HWY and the indication that is owed. -/
theorem State.stationBoundary_cases (s : State) : ∃ x : Hwy, s.stationBoundary = (s.setFtm s.ftm.settled).setHwy x ∧
    s.hwy.AtBoundary s.ftm.restores x := by
  obtain ⟨w, hw, hmons, ⟨hn, ht, hb⟩, _, hdoubt, hsilent, hun, hawake⟩ :=
    (s.setHwy { s.hwy with msgRaised := false }).warmed_atBoundary
  rw [State.stationBoundary_eq, hw, State.restored_eq]
  change ∃ x, (if s.ftm.restores then _ else _) = _ ∧ _
  cases hdue : s.ftm.restores with
  | false =>
    rw [Ftm.settled_of_not_due hdue, if_neg Bool.false_ne_true]
    exact ⟨w, rfl, hmons, ⟨hn, ht, hb⟩, (fun h => nomatch h), hdoubt, hsilent, hun, hawake⟩
  | true =>
    obtain ⟨x, hx, hn', ht', hb', hm', hd', hmute, hother⟩ :=
      State.timingRestored_hwy ((s.setHwy w).setFtm { s.ftm with restoreDue := false })
    simp only [State.setFtm_hwy, State.setHwy_hwy] at hn' ht' hb' hm' hmute hother
    rw [Ftm.settled_of_due hdue, if_pos rfl]
    refine ⟨x, hx, hm'.trans hmons, ⟨hn'.trans hn, ht'.trans ht, hb'.trans hb⟩, fun _ => ⟨hd', fun hs => ?_⟩,
      (fun h => nomatch h), (fun h => nomatch h), fun hs => ?_, fun hs => ?_⟩
    · exact hmute ((hsilent rfl (by simp [hs])).1.trans hs)
    · obtain ⟨hst, hwarm⟩ := hun hs
      obtain ⟨hst', hwarm'⟩ := hother (by simp [hst])
      exact ⟨hst'.trans hst, hwarm'.trans hwarm⟩
    · obtain hst | hst := hawake hs
      · exact .inl ((hother (by simp [hst])).1.trans hst)
      · exact .inr ((hother (by simp [hst])).1.trans hst)

/-- The count and the station at a boundary: what they leave, and what they make of the timer and the station. -/
theorem State.counted_cases (s : State) : s.SameFixed s.counted ∧ s.hwy.AtBoundary s.ftm.restores s.counted.hwy ∧
    s.counted.ftm = s.ftm.atBoundary s.cmd.started ∧ s.counted.ptb = (s.mapPaths fun _ p => p.squelchBoundary s.cbl.holdoff).ptb := by
  obtain ⟨hfixed, hhwy, hptb, hcbl, hftm⟩ := s.countMultiframe_fixed
  set a := s.countMultiframe with ha
  set b := a.mapPaths (fun _ p => p.squelchBoundary a.cbl.holdoff) with hb
  obtain ⟨x, hx, hstation⟩ := b.stationBoundary_cases
  have hcounted : s.counted = (b.setFtm b.ftm.settled).setHwy x := hx
  have hmap : b.ptb = (s.mapPaths fun _ p => p.squelchBoundary s.cbl.holdoff).ptb := by
    rw [hb, hcbl]
    simp only [State.mapPaths, State.setPtb_ptb, hptb]
  have hkeys : b.handles = a.handles := a.handles_mapPaths _
  have hrise (h : Sparse.rising a.ptb.paths = true) : Sparse.rising b.ptb.paths = true :=
    a.rising_mapPaths _ h
  refine ⟨hfixed.trans ?_, ?_, ?_, ?_⟩
  · rw [hcounted]
    exact { State.SameFixed.refl a with
      hwy := hstation.fixed
      handles := fun h => ⟨hkeys, hrise h⟩ }
  · have hbh : b.hwy = s.hwy := hhwy
    have hdue : b.ftm.restores = s.ftm.restores := by
      change a.ftm.restores = _
      rw [hftm]
      rfl
    rw [hcounted, ← hbh, ← hdue]
    exact hstation
  · rw [hcounted]
    change a.ftm.settled = _
    rw [hftm]
    rfl
  · rw [hcounted]
    exact hmap

/-! ### A frame start -/

/-- The timer as a frame starts. -/
def Ftm.started (f : Ftm) (t num : Nat) : Ftm :=
  { f with frame := num, lastStart := t, refLostSeen := f.timer == .holdover }

/-- The state in which a frame has ended and the next has its number and instant. -/
def State.ended (s : State) (t num : Nat) : State := (s.endFrame.setFtm (s.endFrame.ftm.started t num)).ageQueue

theorem State.startFrame_eq (s : State) (t num : Nat) : s.startFrame t num =
    (if num = 0 then (s.ended t num).boundary else s.ended t num).beginFrame s.ftm.frame := rfl

theorem State.ended_fixed (s : State) (t num : Nat) : s.SameFixed (s.ended t num) ∧
    (s.ended t num).ftm = s.ftm.started t num ∧ s.hwy.SameStation (s.ended t num).hwy := by
  have hend := s.endFrame_sameStation
  have hage := (s.endFrame.setFtm (s.endFrame.ftm.started t num)).ageQueue_sameStation
  have hset : s.endFrame.SameFixed (s.endFrame.setFtm (s.endFrame.ftm.started t num)) :=
    { State.SameFixed.refl _ with }
  refine ⟨hend.toSameFixed.trans (hset.trans hage.toSameFixed), hage.ftm.trans ?_, ?_⟩
  · rw [State.setFtm_ftm, hend.ftm]
  · obtain ⟨h1, h2, h3⟩ := hage.station
    obtain ⟨h1', h2', h3'⟩ := hend.station
    exact ⟨h1.trans h1', h2.trans h2', h3.trans h3'⟩

/-- What a frame start leaves, and the timer after it. -/
theorem State.startFrame_fixed (s : State) (t num : Nat) : s.SameFixed (s.startFrame t num) ∧
    (s.startFrame t num).ftm = if num = 0 then (s.ftm.started t num).atBoundary s.cmd.started else s.ftm.started t num := by
  obtain ⟨hended, hftm, _⟩ := s.ended_fixed t num
  rw [State.startFrame_eq]
  split
  · have hbegin := ((s.ended t num).boundary).beginFrame_sameSteady s.ftm.frame
    have hb := (s.ended t num).boundary_reworks.sameStation
    obtain ⟨hc, _, hcftm, _⟩ := (s.ended t num).counted_cases
    refine ⟨hended.trans (hc.trans (hb.toSameFixed.trans hbegin.toSameFixed)), ?_⟩
    rw [hbegin.ftm, hb.ftm, hcftm, hftm, hended.blocks.2.1]
  · have hbegin := (s.ended t num).beginFrame_sameSteady s.ftm.frame
    exact ⟨hended.trans hbegin.toSameFixed, hbegin.ftm.trans hftm⟩

/-- A frame that is not a boundary leaves the station. -/
theorem State.startFrame_station (s : State) (t : Nat) {num : Nat} (hn : num ≠ 0) :
    s.hwy.SameStation (s.startFrame t num).hwy := by
  obtain ⟨_, _, h1, h2, h3⟩ := s.ended_fixed t num
  obtain ⟨h1', h2', h3'⟩ := ((s.ended t num).beginFrame_sameSteady s.ftm.frame).station
  rw [State.startFrame_eq, if_neg hn]
  exact ⟨h1'.trans h1, h2'.trans h2, h3'.trans h3⟩

/-- What a boundary makes of the station. -/
structure Hwy.StationAfter (due : Bool) (w x : Hwy) : Prop where
  restored : due = true → x.doubt = false ∧ (w.station = .mute → x.station = .warming ∧ x.warm = 0)
  doubt : due = false → x.doubt = w.doubt
  silent : due = false → w.station ≠ .warming → x.station = w.station ∧ x.warm = w.warm
  unstarted : w.station = .unstarted → x.station = .unstarted ∧ x.warm = w.warm

theorem State.startFrame_station_boundary (s : State) (t : Nat) :
    s.hwy.StationAfter s.ftm.restores (s.startFrame t 0).hwy := by
  obtain ⟨_, hftm, h1, h2, h3⟩ := s.ended_fixed t 0
  obtain ⟨_, hc, _⟩ := (s.ended t 0).counted_cases
  obtain ⟨h1', h2', h3'⟩ := (s.ended t 0).boundary_reworks.sameStation.station
  obtain ⟨h1'', h2'', h3''⟩ := ((s.ended t 0).boundary.beginFrame_sameSteady s.ftm.frame).station
  have hdue : (s.ended t 0).ftm.restores = s.ftm.restores := by rw [hftm]; rfl
  obtain ⟨_, _, hr, hd, hs, hu, _⟩ := hc
  rw [hdue] at hr hd hs
  rw [State.startFrame_eq, if_pos rfl]
  simp only [h1, h2, h3] at hr hd hs hu
  constructor <;> simp only [h1'', h2'', h3'', h1', h2', h3'] <;> assumption

end Sys2Proof.Machine

/-! ## Proofs: misses, HOLDOVER and the return to TRACKING -/

namespace Sys2Proof.Machine

/-! ### The MUTE request (R102, R144) -/

/-- What MUTE leaves of CBL and HWY as it takes a record: the runs driven and the monitors, and an empty queue. -/
structure State.MuteFrame (s t : State) : Prop where
  cbl : t.cbl = s.cbl
  drives : t.hwy.drives = s.hwy.drives
  mons : t.hwy.mons = s.hwy.mons
  sendQ : s.hwy.sendQ = [] → t.hwy.sendQ = []

theorem State.MuteFrame.refl (s : State) : s.MuteFrame s := ⟨rfl, rfl, rfl, id⟩

theorem State.MuteFrame.trans {s t u : State} (h : s.MuteFrame t) (h' : t.MuteFrame u) : s.MuteFrame u :=
  ⟨h'.cbl.trans h.cbl, h'.drives.trans h.drives, h'.mons.trans h.mons, h'.sendQ ∘ h.sendQ⟩

theorem State.MuteFrame.of_blocks {s t : State} (hc : t.cbl = s.cbl) (hh : t.hwy = s.hwy) : s.MuteFrame t :=
  ⟨hc, by rw [hh], by rw [hh], fun h => by rw [hh, h]⟩

theorem State.MuteFrame.freeOpt (s : State) (x : Option Nat) (k : Nat) : s.MuteFrame (s.freeOpt x k) := by
  cases x <;> exact ⟨rfl, rfl, rfl, id⟩

theorem State.MuteFrame.unsendAccept (s : State) (t : Nat) (b : Bool) : s.MuteFrame (s.unsendAccept t b) :=
  ⟨rfl, rfl, rfl, fun h => List.filter_eq_nil_iff.mpr (by simp [h])⟩

theorem State.MuteFrame.cancelSinkMove (s : State) (h : Nat) (p : PathRec) : s.MuteFrame (s.cancelSinkMove h p) := by
  unfold State.cancelSinkMove
  split
  · exact .refl s
  · dsimp only
    split
    · exact (State.MuteFrame.unsendAccept s p.tag true).trans (.of_blocks (by simp) (by simp))
    · exact .of_blocks (by simp) (by simp)

theorem State.MuteFrame.sinkListens (s : State) (h : Nat) (c : MoveCause) : s.MuteFrame (s.sinkListens h c) := by
  obtain ⟨hcbl, hhwy⟩ := s.failBerthMove_frame h c
  have hfail : s.MuteFrame (s.failBerthMove h c) := .of_blocks hcbl hhwy
  unfold State.sinkListens
  dsimp only
  split
  · exact hfail
  · rename_i p _
    refine hfail.trans ((State.MuteFrame.cancelSinkMove _ h p).trans ?_)
    split
    · exact (State.MuteFrame.unsendAccept _ p.tag false).trans (.of_blocks (by simp) (by simp))
    · exact .of_blocks (by simp) (by simp)

theorem State.MuteFrame.mutePath (h : Nat) (s : State) : s.MuteFrame (State.mutePath h s) := by
  cases hp : s.path h with
  | none =>
    simp only [State.mutePath, hp]
    exact .refl s
  | some p =>
    rcases p.role_cases with hr | hr | hr
    · simp only [State.mutePath, hp, hr]
      exact .refl s
    · have hsource : s.MuteFrame (s.muteSource h p) :=
        (State.MuteFrame.freeOpt s p.hw.cells p.k).trans ((State.MuteFrame.freeOpt _ p.newRun p.k).trans (.of_blocks (by simp [State.muteSource])
          (by simp [State.muteSource])))
      rw [State.mutePath_source hp hr]
      split
      · exact .refl s
      · split
        · exact hsource.trans (.of_blocks (State.post_cbl _ _ _) (State.post_hwy _ _ _))
        · exact hsource
    · rw [State.mutePath_sink hp hr]
      split
      · exact .of_blocks (by simp) (by simp)
      · exact .sinkListens s h .mute

theorem State.MuteFrame.forPaths (s : State) : s.MuteFrame (s.forPaths State.mutePath) := by
  unfold State.forPaths
  induction s.handles generalizing s with
  | nil => exact .refl s
  | cons g l ih => exact (State.MuteFrame.mutePath g s).trans (ih _)

/-- A MUTE request acts as R102 and R144 state, and leaves the timer. -/
theorem State.mute_taken (s : State) : muteTaken s s.mute ∧ s.mute.ftm = s.ftm := by
  cases hs : s.silent with
  | true =>
    rw [State.mute_of_silent hs]
    exact ⟨⟨rfl, rfl, rfl, rfl, rfl, rfl, rfl, rfl, fun _ => ⟨rfl, rfl⟩, fun h => by simp [hs] at h⟩, rfl⟩
  | false =>
    have hpath (h : Nat) (p : PathRec) := State.path_mute (h := h) (p := p) hs
    obtain ⟨⟨hftm, hclp, hcrx, hfil, hcnd, hcmd, hpending⟩, _, ⟨hstation, _, _, hdoubt, _⟩, _⟩ := s.mute_reworks.sameBlocks
    obtain ⟨hcbl, hdrives, hmons, hsendQ⟩ := State.MuteFrame.forPaths s.cut
    rw [State.mute_of_awake hs] at hpath ⊢
    exact ⟨⟨hdoubt, hclp, hcrx, hfil, hcbl, hcnd, hcmd, hpending, fun h => by simp [hs] at h,
      fun _ => ⟨hstation, hsendQ rfl, hmons, hdrives, hpath⟩⟩, hftm⟩

/-! ### HOLDOVER (R3, R4) -/

/-- The timer after an entry into HOLDOVER. -/
def Ftm.heldOver (f : Ftm) : Ftm :=
  { f with timer := .holdover, miss := 0, good := 0, anchor := some (f.lastStart + f.period), mismatch := 0,
           realignPending := false, entries := min 65535 (f.entries + 1), lastPulse := none, restoreDue := false,
           refLostSeen := true }

theorem State.enterHoldover_eq (s : State) : s.enterHoldover = (s.setFtm s.ftm.heldOver).mute := by
  unfold State.enterHoldover Ftm.heldOver
  rw [← satInc_eq_min]

/-- An entry into HOLDOVER: the timer of R4, and the effects of the MUTE request. -/
theorem State.enterHoldover_spec (s : State) : s.enterHoldover.ftm = s.ftm.heldOver ∧ muteTaken s s.enterHoldover := by
  obtain ⟨htaken, hftm⟩ := (s.setFtm s.ftm.heldOver).mute_taken
  rw [State.enterHoldover_eq]
  exact ⟨hftm, htaken⟩

/-- A frame start advances the timer as R9 states, and leaves what takes no part in it. -/
theorem State.frameStarted_startFrame {s : State} (hT : s.TablesOk) (t : Nat) :
    (s.startFrame t s.nextFrame).frameStarted s t := by
  obtain ⟨⟨⟨hfil, hcmd, hpending, hsizing, hscan⟩, ⟨hholdoff, hguard⟩, ⟨hnumber, htimeout, hblock⟩, ⟨hfeeds, hrx, htx⟩,
    hhandles⟩, hftm⟩ := s.startFrame_fixed t s.nextFrame
  have hkeep := (hhandles hT.1).1
  refine ⟨?_, ?_, ?_, ?_, ?_, ?_, ?_, ?_, ?_, ?_, hfil, hcmd, hpending, hsizing, hscan, hholdoff, hguard, hnumber, htimeout,
    hblock, hfeeds, hrx, htx, hkeep⟩ <;> rw [hftm]
  all_goals by_cases hn : s.nextFrame = 0
  all_goals simp [hn, Ftm.atBoundary, Ftm.started]
  all_goals simp_all [State.nextFrame]

theorem State.startFrame_miss (s : State) (t num : Nat) : (s.startFrame t num).ftm.miss = s.ftm.miss ∧
    (s.startFrame t num).ftm.period = s.ftm.period := by
  rw [(s.startFrame_fixed t num).2]
  split <;> exact ⟨rfl, rfl⟩

/-- Settles O6. -/
theorem missesEnterHoldover : Obligations.MissesEnterHoldover := by
  intro s i ht
  refine ⟨?_, ?_, fun hT hm => ?_⟩
  · rintro ⟨t, m, rfl, hw⟩ hm
    have hmiss : s.trackingMiss = s.setFtm { s.ftm with miss := s.ftm.miss + 1, lastPulse := none } :=
      if_neg (Nat.not_le.mpr hm)
    refine (if_neg (by simp [hw])).trans (congrArg Host.Outcome.next ?_)
    rw [← hmiss]
    simp only [ht]
  · rintro hi hm
    have hexec : exec i s = .next s.enterHoldover := by
      rcases hi with rfl | ⟨t, m, rfl, hw⟩
      · exact congrArg Host.Outcome.next (if_pos ⟨ht, hm⟩)
      · refine (if_neg (by simp [hw])).trans (congrArg Host.Outcome.next ?_)
        simp only [ht]
        exact if_pos hm
    exact ⟨_, hexec, s.enterHoldover_spec⟩
  · set v := s.startFrame (s.ftm.lastStart + s.ftm.period) s.nextFrame with hv
    obtain ⟨hmiss, hperiod⟩ := s.startFrame_miss (s.ftm.lastStart + s.ftm.period) s.nextFrame
    have hexec : exec .missingPulse s = .next v.enterHoldover := by
      refine congrArg Host.Outcome.next ?_
      simp only [ht]
      exact if_pos (by rw [hmiss]; exact hm)
    exact ⟨v, _, rfl, hexec, State.frameStarted_startFrame hT _, hperiod, v.enterHoldover_spec⟩

/-! ### The return to TRACKING (R6, R103) -/

/-- The timer of the return, before its frame start. -/
def Ftm.returned (f : Ftm) (t : Nat) : Ftm :=
  { f with timer := .tracking, miss := 0, good := 0, anchor := none, lastPulse := some t }

/-- The state of the return at its frame start, before the timing-restored indication. -/
def State.returned (s : State) (t : Nat) : State :=
  if t ≤ s.ftm.lastStart + Config.windowPs then s.setFtm { s.ftm.returned t with lastStart := t }
  else (s.setFtm (s.ftm.returned t)).startFrame t s.nextFrame

theorem State.trackingReturn_eq (s : State) (t : Nat) : s.trackingReturn t = (s.returned t).timingRestored := by
  unfold State.trackingReturn State.returned
  dsimp only
  split <;> rfl

/-- Both rows of the eighth pulse take the return. -/
theorem exec_trackingReturn {s : State} {t : Nat} {i : Instr} (hs : s.ftm.timer = .holdover) (hw : s.ftm.inWindow t = true)
    (hg : 8 ≤ s.ftm.good + 1) (hi : i = .trackingReturn t ∨ ∃ m, i = .inWindowPulse t m) :
    exec i s = .next (s.trackingReturn t) := by
  rcases hi with rfl | ⟨m, rfl⟩
  · exact congrArg Host.Outcome.next (if_pos ⟨hs, hg, hw⟩)
  · refine (if_pos hw).trans (congrArg Host.Outcome.next ?_)
    simp only [hs]
    exact if_pos hg

/-- The timer, the blocks that take no part, and a MUTE station, at the frame start of the return. -/
theorem State.returned_spec (s : State) (t : Nat) :
    (s.returned t).ftm.timer = .tracking ∧ (s.returned t).ftm.miss = 0 ∧ (s.returned t).ftm.good = 0 ∧
    (s.returned t).ftm.anchor = none ∧ (s.returned t).ftm.lastStart = t ∧ (s.returned t).ftm.period = s.ftm.period ∧
    (s.returned t).ftm.entries = s.ftm.entries ∧ ((s.returned t).fil = s.fil ∧ (s.returned t).cmd = s.cmd ∧
    (s.returned t).pending = s.pending) ∧ (¬ t ≤ s.ftm.lastStart + 7812500 →
      (s.returned t).ftm.frame = (s.ftm.frame + 1) % 16 ∧ (s.hwy.station = .mute →
        (s.returned t).hwy.station = .mute ∨ (s.returned t).hwy.station = .warming ∧ (s.returned t).hwy.warm = 0)) := by
  by_cases hnear : t ≤ s.ftm.lastStart + Config.windowPs
  · have he : s.returned t = s.setFtm { s.ftm.returned t with lastStart := t } := if_pos hnear
    rw [he]
    exact ⟨rfl, rfl, rfl, rfl, rfl, rfl, rfl, ⟨rfl, rfl, rfl⟩, fun h => absurd hnear h⟩
  · have he : s.returned t = (s.setFtm (s.ftm.returned t)).startFrame t s.nextFrame := if_neg hnear
    obtain ⟨hfixed, hftm⟩ := (s.setFtm (s.ftm.returned t)).startFrame_fixed t s.nextFrame
    rw [he, hftm]
    obtain ⟨hfil, hcmd, hpending, _⟩ := hfixed.blocks
    refine ⟨?_, ?_, ?_, ?_, ?_, ?_, ?_, ⟨hfil, hcmd, hpending⟩, fun _ => ⟨?_, fun hs => ?_⟩⟩
    case refine_9 =>
      by_cases hn : s.nextFrame = 0
      · obtain ⟨hr, _, hsilent, _⟩ := (s.setFtm (s.ftm.returned t)).startFrame_station_boundary t
        rw [hn]
        cases hdue : (s.setFtm (s.ftm.returned t)).ftm.restores with
        | true => exact .inr ((hr hdue).2 hs)
        | false => exact .inl ((hsilent hdue (by simp [hs])).1.trans hs)
      · exact .inl ((State.startFrame_station _ t hn).1.trans hs)
    all_goals split <;> rfl

/-- Settles O9. -/
theorem eighthPulseReturnsToTracking : Obligations.EighthPulseReturnsToTracking := by
  intro s t i hs hw hg hi
  obtain ⟨htimer, hmiss, hgood, hanchor, hlast, hperiod, hentries, ⟨hfil, hcmd, hpending⟩, hfar⟩ := s.returned_spec t
  obtain ⟨x, hx, _, _, _, _, hdoubt, hmute, hother⟩ := (s.returned t).timingRestored_hwy
  refine ⟨(s.returned t).timingRestored, ?_, ?_⟩
  · rw [exec_trackingReturn hs hw hg hi, State.trackingReturn_eq]
  rw [hx]
  refine ⟨htimer, hmiss, hgood, hanchor, hlast, hperiod, hentries, hdoubt, fun hnear => ?_, fun hn => ⟨(hfar hn).1, fun hst => ?_⟩,
    hfil, hcmd, hpending⟩
  · have he : s.returned t = s.setFtm { s.ftm.returned t with lastStart := t } := if_pos hnear
    rw [he] at hmute ⊢
    exact ⟨rfl, rfl, rfl, rfl, rfl, rfl, rfl, hmute⟩
  · rcases (hfar hn).2 hst with h | ⟨h, h0⟩
    · exact hmute h
    · obtain ⟨hst', hwarm'⟩ := hother (by simp [h])
      exact ⟨hst'.trans h, hwarm'.trans h0⟩

end Sys2Proof.Machine

/-! ## Proofs: what a boundary does to one record -/

namespace Sys2Proof.Machine

/-! ### A record in use, and whether it is listed -/

/-- The record of a handle, and whether the completion list holds an entry of it. -/
def State.shown (s : State) (h : Nat) : Option (PathRec × Bool) := (s.path h).map (fun p => (p, s.listed h))

theorem State.shown_of_path {s : State} {h : Nat} {p : PathRec} (hp : s.path h = some p) :
    s.shown h = some (p, s.listed h) := by rw [State.shown, hp]; rfl

theorem State.path_of_shown {s : State} {h : Nat} {x : PathRec × Bool} (hx : s.shown h = some x) :
    s.path h = some x.1 ∧ s.listed h = x.2 := by
  obtain ⟨p, hp, rfl⟩ := Option.map_eq_some_iff.mp hx
  exact ⟨hp, rfl⟩

theorem State.shown_congr {s t : State} {h : Nat} (hp : t.path h = s.path h)
    (hc : t.ptb.completions = s.ptb.completions) : t.shown h = s.shown h := by
  rw [State.shown, State.shown, hp, State.listed_congr hc]

theorem State.shown_of_ptb {s t : State} (hp : t.ptb = s.ptb) (h : Nat) : t.shown h = s.shown h :=
  State.shown_congr (State.path_congr hp h) (by rw [hp])

theorem State.shown_setPath (s : State) (h : Nat) (p : PathRec) : (s.setPath h p).shown h = some (p, s.listed h) :=
  State.shown_of_path (State.path_setPath_self s h p)

theorem State.shown_post {s : State} {h : Nat} {p : PathRec} {l : Bool} (hp : s.shown h = some (p, l)) (c : Completion) :
    (s.post h c).shown h = some (p.posted l c, true) := by
  obtain ⟨hpath, hl⟩ := State.path_of_shown hp
  rw [State.shown_of_path (State.path_post_self hpath c), State.post_listed hpath, hl]
  simp

/-- A rework of other records leaves the record and its entry. -/
theorem State.Reworks.listed_eq {H : Nat → Prop} {s t : State} (hr : State.Reworks H s t) {g : Nat} (hg : ¬ H g) :
    t.listed g = s.listed g := by
  induction hr with
  | refl => rfl
  | trans _ _ ih ih' => rw [ih', ih]
  | setPath _ _ _ => rfl
  | mapPaths _ _ => rfl
  | @post h s c hh =>
    have hne : g ≠ h := by rintro rfl; exact hg hh
    cases hp : s.path h with
    | none => rw [State.post, hp]
    | some p => rw [State.post_listed hp]; simp [hne]
  | setHwy _ => rfl
  | setOwners _ => rfl

theorem State.Reworks.shown_eq {H : Nat → Prop} {s t : State} (hr : State.Reworks H s t) {g : Nat} (hg : ¬ H g) :
    t.shown g = s.shown g := by rw [State.shown, State.shown, hr.path_eq hg, hr.listed_eq hg]

/-- A step of every record meets a record in use as the steps of the others have left it, and they leave it after. -/
theorem State.forPaths_shown {s : State} {f : Nat → State → State} (hf : ∀ g u, State.Reworks (· = g) u (f g u))
    (hs : Sparse.rising s.ptb.paths = true) {h : Nat} {p : PathRec} (hp : s.path h = some p) :
    ∃ u, State.Reworks (· ≠ h) s u ∧ (s.forPaths f).shown h = (f h u).shown h := by
  have hnodup : s.handles.Nodup :=
    ((Sparse.rising_iff_pairwise s.ptb.paths).mp hs).imp fun hlt => Nat.ne_of_lt hlt
  obtain ⟨l, r, hlr⟩ := List.append_of_mem (State.mem_handles_of_path hp)
  rw [hlr, List.nodup_append, List.nodup_cons] at hnodup
  obtain ⟨_, ⟨hr, _⟩, hdisj⟩ := hnodup
  have hother (k : List Nat) (hk : h ∉ k) (v : State) : State.Reworks (· ≠ h) v (k.foldl (fun s g => f g s) v) :=
    .foldl (fun w g hg => (hf g w).mono fun x hx => by rw [hx]; rintro rfl; exact hk hg) v
  refine ⟨l.foldl (fun s g => f g s) s, hother l (fun hl => hdisj h hl h (by simp) rfl) s, ?_⟩
  rw [State.forPaths, hlr, List.foldl_append, List.foldl_cons]
  exact (hother r hr _).shown_eq (by simp)

theorem State.shown_mapPaths (s : State) (f : Nat → PathRec → PathRec) (h : Nat) :
    (s.mapPaths f).shown h = (s.shown h).map (fun x => (f h x.1, x.2)) := by
  rw [State.shown, State.shown, State.path_mapPaths, Option.map_map, Option.map_map]
  rfl

/-! ### A completion leaves the fields of the highway and of the moves -/

@[simp] theorem PathRec.posted_role (p : PathRec) (b : Bool) (c : Completion) : (p.posted b c).role = p.role := by
  unfold PathRec.posted; split <;> rfl
@[simp] theorem PathRec.posted_k (p : PathRec) (b : Bool) (c : Completion) : (p.posted b c).k = p.k := by
  unfold PathRec.posted; split <;> rfl
@[simp] theorem PathRec.posted_state (p : PathRec) (b : Bool) (c : Completion) : (p.posted b c).state = p.state := by
  unfold PathRec.posted; split <;> rfl
@[simp] theorem PathRec.posted_hw (p : PathRec) (b : Bool) (c : Completion) : (p.posted b c).hw = p.hw := by
  unfold PathRec.posted; split <;> rfl
@[simp] theorem PathRec.posted_sk (p : PathRec) (b : Bool) (c : Completion) : (p.posted b c).sk = p.sk := by
  unfold PathRec.posted; split <;> rfl
@[simp] theorem PathRec.posted_sink (p : PathRec) (b : Bool) (c : Completion) : (p.posted b c).sink = p.sink := by
  unfold PathRec.posted; split <;> rfl
@[simp] theorem PathRec.posted_bmove (p : PathRec) (b : Bool) (c : Completion) : (p.posted b c).bmove = p.bmove := by
  unfold PathRec.posted; split <;> rfl
@[simp] theorem PathRec.posted_undo (p : PathRec) (b : Bool) (c : Completion) : (p.posted b c).undo = p.undo := by
  unfold PathRec.posted; split <;> rfl
@[simp] theorem PathRec.posted_enable (p : PathRec) (b : Bool) (c : Completion) :
    (p.posted b c).enablePending = p.enablePending := by
  unfold PathRec.posted; split <;> rfl
@[simp] theorem PathRec.posted_last (p : PathRec) (b : Bool) (c : Completion) :
    (p.posted b c).lastCompletion = some c := by
  unfold PathRec.posted; split <;> rfl

/-! ### The steps of a boundary, on one record -/

/-- A record that a completion is posted of. -/
def posting (c : Completion) (x : PathRec × Bool) : PathRec × Bool := (x.1.posted x.2 c, true)

/-- A request of a record's state (R42). -/
def PathRec.asked (a b : PState) (p : PathRec) : PathRec := { p with state := if p.state = a then b else p.state }

def PathRec.undone (p : PathRec) : PathRec :=
  { p with
    undo := none
    sink := match p.undo with
      | some m => if m.phase = .retiring then some (.carrier m.oldC m.oldB) else p.sink
      | none => p.sink }

def PathRec.backedOff (p : PathRec) : PathRec :=
  match p.hw.backoff with
  | none => p
  | some n =>
    if n ≤ 1 then ({ p with hw := { p.hw with backoff := none } }).asked .collided .waiting
    else { p with hw := { p.hw with backoff := some (n - 1) } }

/-- The loss count, short of its end (R141). -/
def PathRec.lossCounted (p : PathRec) : PathRec :=
  if p.receives then { p with sk := { p.sk with loss := if p.sk.rawLoss then p.sk.loss + 1 else 0 } } else p

/-- The loss count is at its end (R141). -/
def PathRec.lossEnds (p : PathRec) : Bool := p.receives && p.sk.rawLoss && decide (2 ≤ p.sk.loss + 1)

def sinkBegun (x : PathRec × Bool) : PathRec × Bool :=
  if x.1.state = .accepted ∧ x.1.sk.status = some .sent then
    posting .sinkStarted ({ x.1 with state := .receiving, sk := { x.1.sk.zeroed with status := none } }, x.2)
  else x

def claimBegun (x : PathRec × Bool) : PathRec × Bool :=
  if x.1.state = .claiming ∧ x.1.hw.acceptHeard = true then
    posting .claimAccepted
      ({ x.1 with state := .carrying, hw := { x.1.hw with acceptHeard := false, clean := 0 } }, x.2)
  else x

/-- A boundary of a move of cells (R152, R153). -/
def cellsStepped (g : Nat) (x : PathRec × Bool) : PathRec × Bool :=
  match x.1.hw.move with
  | none => x
  | some m =>
    match m.phase with
    | .accepted => ({ x.1 with hw := { x.1.hw with move := some { m with phase := .bridge, guard := 0 } } }, x.2)
    | .bridge =>
      ({ x.1 with hw := { x.1.hw with move := some { m with
          phase := if g ≤ m.guard + 1 then .retiring else m.phase, guard := m.guard + 1 } } }, x.2)
    | .retiring =>
      posting .moveDone (({ x.1 with hw := { x.1.hw with cells := m.new, move := none, clean := 0 } }).asked .moving
        .carrying, x.2)
    | .seeking => x
    | .claimed => x

/-- A boundary of a sink's cell move (R154). -/
def PathRec.sinkStepped (g : Nat) (p : PathRec) : PathRec :=
  match p.sk.move with
  | none => p
  | some m =>
    match m.status with
    | .queued => p
    | .sent => { p with sk := { p.sk with move := some { m with status := .bridging, guard := 0 } } }
    | .bridging =>
      if g ≤ m.guard + 1 then { p with sk := { p.sk.zeroed with cells := some m.new, move := none } }
      else { p with sk := { p.sk with move := some { m with guard := m.guard + 1 } } }

/-- A boundary of a move of berths in BRIDGE or RETIRING (R149). -/
def berthsStepped (g : Nat) (x : PathRec × Bool) : PathRec × Bool :=
  match x.1.bmove with
  | none => x
  | some m =>
    match m.phase with
    | .pending => x
    | .bridge =>
      if g ≤ m.guard + 1 then
        ({ x.1 with sink := some (.carrier m.newC m.newB),
                    bmove := some { m with phase := .retiring, guard := m.guard + 1 } }, x.2)
      else ({ x.1 with bmove := some { m with guard := m.guard + 1 } }, x.2)
    | .retiring => posting .moveDone (({ x.1 with bmove := none }).asked .moving x.1.liveState, x.2)

/-- The first boundary of a move of berths, where another path owns a new berth and where none does (R148). -/
def berthsBegun (busy : Bool) (x : PathRec × Bool) : PathRec × Bool :=
  match x.1.bmove with
  | none => x
  | some m =>
    if m.phase = .pending then
      if busy then
        posting (.moveFailed .endpointBusy) (({ x.1 with bmove := none }).asked .moving x.1.liveState, x.2)
      else ({ x.1 with bmove := some { m with phase := .bridge, guard := 0 } }, x.2)
    else x

def adopted (awake : Bool) (x : PathRec × Bool) : PathRec × Bool :=
  match x.1.sk.watch with
  | none => x
  | some r =>
    if x.1.state = .listening ∧ awake = true then
      posting .sinkStarted
        ({ x.1 with state := .receiving, sk := { x.1.sk.zeroed with cells := some r, watch := none } }, x.2)
    else x

/-! ### The steps of the model do that -/

theorem State.shown_of_setPath {s t : State} {h : Nat} {p : PathRec} {l : Bool} (ht : t = s.setPath h p)
    (hl : s.listed h = l) : t.shown h = some (p, l) := by
  rw [ht, State.shown_setPath, hl]

theorem State.shown_request {s : State} {h : Nat} {p : PathRec} {l : Bool} (hp : s.shown h = some (p, l)) (a b : PState) :
    (s.request h a b).shown h = some (p.asked a b, l) := by
  obtain ⟨hpath, hl⟩ := State.path_of_shown hp
  rw [State.request, State.modPath_of_path _ hpath]
  refine State.shown_of_setPath (s := s) (congrArg (s.setPath h) ?_) hl
  unfold PathRec.asked
  split <;> rfl

theorem State.shown_modHw {s : State} {h : Nat} {p : PathRec} {l : Bool} (hp : s.shown h = some (p, l))
    (f : SrcHw → SrcHw) : (s.modHw h f).shown h = some ({ p with hw := f p.hw }, l) := by
  obtain ⟨hpath, hl⟩ := State.path_of_shown hp
  exact State.shown_of_setPath (State.modHw_of_path hpath f) hl

theorem State.shown_modSk {s : State} {h : Nat} {p : PathRec} {l : Bool} (hp : s.shown h = some (p, l))
    (f : SnkHw → SnkHw) : (s.modSk h f).shown h = some ({ p with sk := f p.sk }, l) := by
  obtain ⟨hpath, hl⟩ := State.path_of_shown hp
  exact State.shown_of_setPath (State.modSk_of_path hpath f) hl

section
variable {s : State} {h : Nat} {x : PathRec × Bool}

theorem State.shown_undoBerths (hx : s.shown h = some x) : (State.undoBerths h s).shown h = some (x.1.undone, x.2) := by
  obtain ⟨hp, hl⟩ := State.path_of_shown hx
  simp only [State.undoBerths, hp]
  cases hu : x.1.undo with
  | none =>
    rw [hx]
    simp only [PathRec.undone, hu]
    rw [← hu]
  | some m =>
    simp only [PathRec.undone, hu]
    split
    · exact State.shown_of_setPath rfl hl
    · exact State.shown_of_setPath rfl hl

theorem State.shown_backoffStep (hx : s.shown h = some x) :
    (State.backoffStep h s).shown h = some (x.1.backedOff, x.2) := by
  obtain ⟨hp, _⟩ := State.path_of_shown hx
  simp only [State.backoffStep, hp, PathRec.backedOff]
  cases x.1.hw.backoff with
  | none => exact hx
  | some n =>
    dsimp only
    split
    · exact State.shown_request (State.shown_modHw hx _) _ _
    · exact State.shown_modHw hx _

theorem State.shown_lossStep (hx : s.shown h = some x) (hl : x.1.lossEnds = false) :
    (State.lossStep h s).shown h = some (x.1.lossCounted, x.2) := by
  obtain ⟨hp, _⟩ := State.path_of_shown hx
  simp only [State.lossStep, hp, PathRec.lossCounted]
  split
  · rename_i hr
    split
    · rename_i hloss
      rw [if_neg (by simpa [PathRec.lossEnds, hr, hloss] using hl)]
      exact State.shown_modSk hx _
    · exact State.shown_modSk hx _
  · exact hx

theorem State.shown_sinkEffective (hx : s.shown h = some x) : (State.sinkEffective h s).shown h = some (sinkBegun x) := by
  obtain ⟨hp, _⟩ := State.path_of_shown hx
  simp only [State.sinkEffective, hp, sinkBegun]
  split
  · rename_i hst
    have hreq := State.shown_request (State.shown_modSk hx (fun k => { k.zeroed with status := none })) .accepted .receiving
    rw [PathRec.asked, if_pos hst.1] at hreq
    exact State.shown_post hreq _
  · exact hx

theorem State.shown_claimEffective (hx : s.shown h = some x) :
    (State.claimEffective h s).shown h = some (claimBegun x) := by
  obtain ⟨hp, _⟩ := State.path_of_shown hx
  simp only [State.claimEffective, hp, claimBegun]
  split
  · rename_i hst
    set v := (match x.1.hw.cells with | some r => s.holdRun r x.1.k | none => s) with hv
    have hv' : v.shown h = some x := by
      refine (State.shown_of_ptb (s := s) ?_ h).trans hx
      rw [hv]
      split <;> rfl
    have hreq := State.shown_request (State.shown_modHw hv' (fun w => { w with acceptHeard := false, clean := 0 }))
      .claiming .carrying
    rw [PathRec.asked, if_pos hst.1] at hreq
    exact State.shown_post hreq _
  · exact hx

/-- A record to which no monitor is bound meets the boundary of the monitors unchanged. -/
theorem State.monitorStep_of_unbound (hm : ∀ m ∈ s.hwy.mons, m.isFor h = false) : State.monitorStep h s = s := by
  have hnone : s.monitorOf h = none := List.find?_eq_none.mpr fun m hmem => by simp [hm m hmem]
  simp only [State.monitorStep, hnone]

theorem State.shown_stepCells (hx : s.shown h = some x) :
    (State.stepCells h s).shown h = some (cellsStepped s.cbl.guard x) := by
  obtain ⟨hp, _⟩ := State.path_of_shown hx
  simp only [State.stepCells, hp, cellsStepped]
  cases x.1.hw.move with
  | none => exact hx
  | some m =>
    dsimp only
    cases m.phase with
    | seeking => exact hx
    | claimed => exact hx
    | accepted =>
      refine State.shown_modHw ?_ _
      cases m.new <;> exact hx
    | bridge =>
      dsimp only
      split
      · exact State.shown_modHw hx _
      · exact State.shown_modHw hx _
    | retiring =>
      have hv : ((s.freeRun m.old x.1.k).sendRelease x.1 m.old .moved).shown h = some x :=
        (State.shown_of_ptb (by simp) h).trans hx
      exact State.shown_post (State.shown_request (State.shown_modHw hv _) _ _) _

theorem State.shown_stepSinkMove (hx : s.shown h = some x) :
    (State.stepSinkMove h s).shown h = some (x.1.sinkStepped s.cbl.guard, x.2) := by
  obtain ⟨hp, _⟩ := State.path_of_shown hx
  simp only [State.stepSinkMove, hp, PathRec.sinkStepped]
  cases x.1.sk.move with
  | none => exact hx
  | some m =>
    dsimp only
    cases m.status with
    | queued => exact hx
    | sent => exact State.shown_modSk hx _
    | bridging =>
      dsimp only
      split
      · exact State.shown_modSk hx _
      · exact State.shown_modSk hx _

theorem State.shown_stepBerths (hx : s.shown h = some x) :
    (State.stepBerths h s).shown h = some (berthsStepped s.cbl.guard x) := by
  obtain ⟨hp, hl⟩ := State.path_of_shown hx
  simp only [State.stepBerths, hp, berthsStepped]
  cases x.1.bmove with
  | none => exact hx
  | some m =>
    dsimp only
    cases m.phase with
    | pending => exact hx
    | bridge =>
      dsimp only
      split
      · exact State.shown_of_setPath rfl hl
      · exact State.shown_of_setPath rfl hl
    | retiring =>
      refine State.shown_post (State.shown_request ?_ _ _) _
      exact State.shown_of_setPath rfl hl

theorem State.shown_beginBerths (hx : s.shown h = some x) :
    ∃ busy, (State.beginBerths h s).shown h = some (berthsBegun busy x) := by
  obtain ⟨hp, hl⟩ := State.path_of_shown hx
  simp only [State.beginBerths, hp, berthsBegun]
  cases x.1.bmove with
  | none => exact ⟨false, hx⟩
  | some m =>
    dsimp only
    refine ⟨s.anyOwner m.newC m.newB x.1.k (fun o => o.handle != h), ?_⟩
    split
    · split
      · exact State.shown_post (State.shown_request (State.shown_of_setPath rfl hl) _ _) _
      · exact State.shown_of_setPath rfl hl
    · exact hx

theorem State.shown_adopt (hx : s.shown h = some x) : (State.adopt h s).shown h = some (adopted s.mayCreate x) := by
  obtain ⟨hp, _⟩ := State.path_of_shown hx
  simp only [State.adopt, hp, adopted]
  cases x.1.sk.watch with
  | none => exact hx
  | some r =>
    dsimp only
    split
    · rename_i hst
      have hreq := State.shown_request (State.shown_modSk hx (fun k => { k.zeroed with cells := some r, watch := none }))
        .listening .receiving
      rw [PathRec.asked, if_pos hst.1] at hreq
      exact State.shown_post hreq _
    · exact hx

theorem State.chooseCells_of_settled (hx : s.shown h = some x) (hs : x.1.seeks = false) : State.chooseCells h s = s := by
  obtain ⟨hp, _⟩ := State.path_of_shown hx
  simp [State.chooseCells, hp, hs]

end

end Sys2Proof.Machine

/-! ## Proofs: one record through a whole boundary -/

namespace Sys2Proof.Machine

/-- From one state to another only records, the owner maps and HWY's own fields have changed, and one record stands as
given. -/
structure State.Meets (s t : State) (h : Nat) (x : PathRec × Bool) : Prop where
  reworks : State.Reworks (fun _ => True) s t
  rising : Sparse.rising t.ptb.paths = true
  shown : t.shown h = some x

namespace State.Meets

variable {s t : State} {h : Nat} {x y : PathRec × Bool}

theorem refl (hs : Sparse.rising s.ptb.paths = true) (hx : s.shown h = some x) : s.Meets s h x := ⟨.refl s, hs, hx⟩

theorem guard_eq (k : s.Meets t h x) : t.cbl.guard = s.cbl.guard := k.reworks.sameBlocks.cbl.2.1

theorem forPaths_of {f : Nat → State → State} (k : s.Meets t h x) (hf : ∀ g u, State.Reworks (· = g) u (f g u))
    (hstep : ∀ u, State.Reworks (· ≠ h) t u → s.Meets u h x → (f h u).shown h = some y) : s.Meets (t.forPaths f) h y := by
  obtain ⟨u, hu, hshown⟩ := State.forPaths_shown hf k.rising (State.path_of_shown k.shown).1
  have hall := State.Reworks.forPaths hf t
  refine ⟨k.reworks.trans hall, (hall.handles_eq k.rising).2, hshown.trans (hstep u hu ⟨?_, ?_, ?_⟩)⟩
  · exact k.reworks.trans (hu.mono fun _ _ => trivial)
  · exact (hu.handles_eq k.rising).2
  · exact (hu.shown_eq (by simp)).trans k.shown

theorem forPaths {f : Nat → State → State} (k : s.Meets t h x) (hf : ∀ g u, State.Reworks (· = g) u (f g u))
    (hstep : ∀ u, s.Meets u h x → (f h u).shown h = some y) : s.Meets (t.forPaths f) h y :=
  k.forPaths_of hf fun u _ hu => hstep u hu

theorem mapPaths {f : PathRec → PathRec} (k : s.Meets t h x) (hf : ∀ b p, PathRec.Kept b p (f p)) :
    s.Meets (t.mapPaths fun _ p => f p) h (f x.1, x.2) :=
  ⟨k.reworks.trans (.mapPaths (fun _ => trivial) fun _ p _ => hf _ p), t.rising_mapPaths _ k.rising,
    (t.shown_mapPaths _ h).trans (by rw [k.shown]; rfl)⟩

theorem agedCells (k : s.Meets t h x) : s.Meets t.agedCells h x :=
  ⟨k.reworks.trans (.mapCells _), k.rising, k.shown⟩

end State.Meets

/-! ### The steps before the monitors -/

/-- The steps of a boundary up to the effective boundary of a claimant. -/
def State.headSteps (s : State) : State :=
  (((((s.forPaths State.undoBerths).agedCells.forPaths State.backoffStep).mapPaths
    (fun _ p => p.cleanBoundary)).forPaths State.lossStep).forPaths State.sinkEffective).forPaths State.claimEffective

/-- The steps of a boundary after the monitors, up to the adoption of a run. -/
def State.tailSteps (s : State) : State :=
  ((((s.forPaths State.stepCells).forPaths State.stepSinkMove).forPaths State.stepBerths).forPaths
    State.beginBerths).forPaths State.adopt

theorem State.stepRecords_eq (s : State) : s.stepRecords = (s.headSteps.forPaths State.monitorStep).tailSteps := rfl

/-- A record before its loss count. -/
def PathRec.counting (p : PathRec) : PathRec := p.undone.backedOff.cleanBoundary

/-- What the steps before the monitors make of a record. -/
def headStepped (x : PathRec × Bool) : PathRec × Bool := claimBegun (sinkBegun (x.1.counting.lossCounted, x.2))

/-- What the steps after the monitors make of a record. -/
def tailStepped (g : Nat) (awake busy : Bool) (x : PathRec × Bool) : PathRec × Bool :=
  adopted awake (berthsBegun busy (berthsStepped g ((cellsStepped g x).1.sinkStepped g, (cellsStepped g x).2)))

namespace State.Meets

variable {s t : State} {h : Nat} {x : PathRec × Bool}

theorem headSteps (k : s.Meets t h x) (hl : x.1.counting.lossEnds = false) : s.Meets t.headSteps h (headStepped x) := by
  have hundo := k.forPaths (fun _ _ => .undoBerths rfl) fun u hu => State.shown_undoBerths hu.shown
  have hback := hundo.agedCells.forPaths (fun _ _ => .backoffStep rfl) fun u hu => State.shown_backoffStep hu.shown
  have hclean := hback.mapPaths (f := PathRec.cleanBoundary) fun b p => p.cleanBoundary_kept b
  have hloss := hclean.forPaths (fun _ _ => .lossStep rfl) fun u hu => State.shown_lossStep hu.shown hl
  have hsink := hloss.forPaths (fun _ _ => .sinkEffective rfl) fun u hu => State.shown_sinkEffective hu.shown
  exact hsink.forPaths (fun _ _ => .claimEffective rfl) fun u hu => State.shown_claimEffective hu.shown

theorem tailSteps (k : s.Meets t h x) :
    ∃ busy, s.Meets t.tailSteps h (tailStepped s.cbl.guard s.mayCreate busy x) := by
  have hcells := k.forPaths (fun _ _ => .stepCells rfl) fun u hu => hu.guard_eq ▸ State.shown_stepCells hu.shown
  have hsink := hcells.forPaths (fun _ _ => .stepSinkMove rfl) fun u hu => hu.guard_eq ▸ State.shown_stepSinkMove hu.shown
  have hberths := hsink.forPaths (fun _ _ => .stepBerths rfl) fun u hu => hu.guard_eq ▸ State.shown_stepBerths hu.shown
  obtain ⟨u, hu, hshown⟩ := State.forPaths_shown (f := State.beginBerths) (fun _ _ => .beginBerths rfl) hberths.rising
    (State.path_of_shown hberths.shown).1
  obtain ⟨busy, hbusy⟩ := State.shown_beginBerths ((hu.shown_eq (by simp)).trans hberths.shown)
  have hall := State.Reworks.forPaths (f := State.beginBerths) (fun _ _ => .beginBerths rfl)
  have hbegin : s.Meets _ h _ := ⟨hberths.reworks.trans (hall _), ((hall _).handles_eq hberths.rising).2,
    hshown.trans hbusy⟩
  exact ⟨busy, hbegin.forPaths (fun _ _ => .adopt rfl) fun u hu =>
    hu.reworks.mayCreate_eq ▸ State.shown_adopt hu.shown⟩

/-- A record that no longer seeks cells at the end of a boundary is not given any. -/
theorem chosen (k : s.Meets t h x) (hs : t.hwy.station = .joined → x.1.seeks = false) : s.Meets t.chosen h x := by
  unfold State.chosen
  split
  · exact k.forPaths (fun _ _ => .chooseCells rfl) fun u hu => by
      rw [State.chooseCells_of_settled hu.shown (hs ‹_›)]
      exact hu.shown
  · exact k

end State.Meets

/-! ### The monitors, before their own step -/

theorem State.undoBerths_hwy (h : Nat) (s : State) : (State.undoBerths h s).hwy = s.hwy := by
  unfold State.undoBerths
  split
  · rfl
  · split
    · rfl
    · dsimp only
      split <;> rfl

theorem State.backoffStep_hwy (h : Nat) (s : State) : (State.backoffStep h s).hwy = s.hwy := by
  unfold State.backoffStep
  split
  · rfl
  · split
    · rfl
    · split <;> simp

theorem State.lossStep_mons (h : Nat) (s : State) : (State.lossStep h s).hwy.mons = s.hwy.mons := by
  unfold State.lossStep
  split
  · rfl
  · split
    · split
      · split
        · rw [State.post_hwy]
          exact (State.MuteFrame.sinkListens s h .lost).mons
        · simp
      · simp
    · rfl

theorem State.sinkEffective_hwy (h : Nat) (s : State) : (State.sinkEffective h s).hwy = s.hwy := by
  unfold State.sinkEffective
  split
  · rfl
  · split <;> simp

theorem State.claimEffective_mons (h : Nat) (s : State) : (State.claimEffective h s).hwy.mons = s.hwy.mons := by
  unfold State.claimEffective
  split
  · rfl
  · split
    · dsimp only
      split <;> simp [State.holdRun]
    · rfl

theorem State.forPaths_mons {f : Nat → State → State} (hf : ∀ h s, (f h s).hwy.mons = s.hwy.mons) (s : State) :
    (s.forPaths f).hwy.mons = s.hwy.mons := by
  unfold State.forPaths
  induction s.handles generalizing s with
  | nil => rfl
  | cons g l ih => exact (ih (f g s)).trans (hf g s)

theorem State.headSteps_mons (s : State) : s.headSteps.hwy.mons = s.hwy.mons := by
  unfold State.headSteps
  refine (State.forPaths_mons State.claimEffective_mons _).trans ?_
  refine (State.forPaths_mons (fun h s => by rw [State.sinkEffective_hwy]) _).trans ?_
  refine (State.forPaths_mons State.lossStep_mons _).trans ?_
  refine Eq.trans (b := ((s.forPaths State.undoBerths).agedCells.forPaths State.backoffStep).hwy.mons) rfl ?_
  refine (State.forPaths_mons (fun h s => by rw [State.backoffStep_hwy]) _).trans ?_
  exact State.forPaths_mons (fun h s => by rw [State.undoBerths_hwy]) s

/-! ### A whole boundary -/

/-- What a boundary makes of a record to which no monitor is bound, up to the pending enable. -/
def boundaryStepped (g : Nat) (awake busy : Bool) (x : PathRec × Bool) : PathRec × Bool :=
  tailStepped g awake busy (headStepped x)

/-- The steps of a boundary take a record to which no monitor is bound through its own steps. -/
theorem State.Meets.stepRecords {s : State} {h : Nat} {x : PathRec × Bool} (hs : Sparse.rising s.ptb.paths = true)
    (hx : s.shown h = some x) (hm : ∀ m ∈ s.hwy.mons, m.isFor h = false) (hl : x.1.counting.lossEnds = false) :
    ∃ busy, s.Meets s.stepRecords h (boundaryStepped s.cbl.guard s.mayCreate busy x) := by
  have hhead := (State.Meets.refl hs hx).headSteps hl
  have hunbound : ∀ m ∈ s.headSteps.hwy.mons, m.isFor h = false := by rw [State.headSteps_mons]; exact hm
  have hmon : s.Meets (s.headSteps.forPaths State.monitorStep) h (headStepped x) :=
    hhead.forPaths_of (fun _ _ => .monitorStep rfl) fun u hu hk => by
      rw [State.monitorStep_of_unbound (hu.unbound (by simp) hunbound)]
      exact hk.shown
  exact hmon.tailSteps

/-- The end of a boundary: the pending enable, the cell choice, and the counts of the new multiframe. -/
theorem State.Meets.boundary {s : State} {h : Nat} {x : PathRec × Bool} (k : s.counted.Meets s.counted.stepRecords h x)
    (hs : s.counted.hwy.station = .joined → x.1.localEnable.seeks = false) :
    s.boundary.shown h = some (x.1.localEnable.restartMultiframe, x.2) := by
  have henable := k.mapPaths (f := PathRec.localEnable) fun b p => p.localEnable_kept b
  have hchosen := henable.chosen fun hj => hs (henable.reworks.sameBlocks.hwy.1 ▸ hj)
  have hrestart := hchosen.mapPaths (f := PathRec.restartMultiframe) fun b p => p.restartMultiframe_kept b
  rw [State.boundary_eq]
  exact hrestart.shown

end Sys2Proof.Machine

/-! ## Proofs: one record through a whole frame start -/

namespace Sys2Proof.Machine

/-! ### The frame that ends -/

/-- A record at the end of a frame (R93, R138, R140, R142). -/
def PathRec.ending (passed : BitVec 1024) (awake : Bool) (n : Nat) (p : PathRec) : PathRec :=
  ((p.sinkRaws passed).watchFrame awake n).squelchOnset

theorem State.shown_endFrame (s : State) (h : Nat) : s.endFrame.shown h =
    (s.shown h).map (fun x => (x.1.ending s.hwy.passed s.mayCreate s.ftm.frame, x.2)) :=
  State.shown_mapPaths s.silentCells _ h

theorem missUnpassed_eq (passed : BitVec 1024) (r : Nat) (k : SnkHw) : ∀ n,
    ∃ m, missUnpassed passed r n k = { k with missing := m }
  | 0 => ⟨k.missing, rfl⟩
  | n + 1 => by
    obtain ⟨m, hm⟩ := missUnpassed_eq passed r k n
    simp only [missUnpassed, hm]
    split
    · exact ⟨m, rfl⟩
    · exact ⟨_, rfl⟩

/-- The end of a frame changes a record's missing counts, raw states, watch and squelch alone. -/
theorem PathRec.sinkRaws_eq (passed : BitVec 1024) (p : PathRec) : ∃ m a b c, p.sinkRaws passed =
    { p with sk := { p.sk with missing := m, rawDefect := a, rawLoss := b, rawCheck := c } } ∧
    (p.receives = false → m = p.sk.missing) := by
  unfold PathRec.sinkRaws
  split
  · rename_i hr
    have hfalse {P : Prop} : p.receives = false → P := fun h => by simp [hr] at h
    dsimp only
    split
    · split
      · obtain ⟨m, hm⟩ := missUnpassed_eq passed _ p.sk p.k
        rw [hm]
        exact ⟨_, _, _, _, rfl, hfalse⟩
      · exact ⟨_, _, _, _, rfl, hfalse⟩
    · exact ⟨_, _, _, _, rfl, hfalse⟩
  · exact ⟨_, _, _, _, rfl, fun _ => rfl⟩

theorem PathRec.squelchOnset_eq (p : PathRec) : ∃ q, p.squelchOnset = { p with sq := q } := by
  unfold PathRec.squelchOnset
  split <;> exact ⟨_, rfl⟩

theorem PathRec.squelchBoundary_eq (n : Nat) (p : PathRec) : ∃ q, p.squelchBoundary n = { p with sq := q } := by
  unfold PathRec.squelchBoundary
  dsimp only
  split_ifs <;> exact ⟨_, rfl⟩

/-- The adoption watch after a frame (R142). -/
theorem PathRec.watchFrame_eq (awake : Bool) (n : Nat) (p : PathRec) : ∃ w, p.watchFrame awake n =
    { p with sk := { p.sk with watch := w } } ∧ (awake = false → w = none) ∧
    (∀ x, awake = true → n ≠ 0 → p.role = .sink → p.state = .listening → p.sk.watch = some x →
      completeRun p.sk.watchSeen p.k x = true → w = some x) := by
  refine ⟨_, rfl, fun h => ?_, fun x ha hn hr hs hw hc => ?_⟩
  · simp [h]
  · simp [ha, hn, hr, hs, hw, hc]

/-- A record as the boundary finds it: with other missing counts, raw states, watch and squelch. -/
def PathRec.ended (p : PathRec) (m : Sparse Nat) (a b c : Bool) (w : Option Nat) (q : Squelch) : PathRec :=
  { p with sk := { p.sk with missing := m, rawDefect := a, rawLoss := b, rawCheck := c, watch := w }, sq := q }

theorem PathRec.ending_eq (passed : BitVec 1024) (awake : Bool) (n : Nat) (p : PathRec) : ∃ m a b c w q,
    p.ending passed awake n = p.ended m a b c w q ∧ (p.receives = false → m = p.sk.missing) ∧
    (awake = false → w = none) ∧
    (∀ x, awake = true → n ≠ 0 → p.role = .sink → p.state = .listening → p.sk.watch = some x →
      completeRun p.sk.watchSeen p.k x = true → w = some x) := by
  obtain ⟨m, a, b, c, hraws, hm⟩ := p.sinkRaws_eq passed
  obtain ⟨w, hwatch, hnone, hsome⟩ := (p.sinkRaws passed).watchFrame_eq awake n
  obtain ⟨q, hq⟩ := ((p.sinkRaws passed).watchFrame awake n).squelchOnset_eq
  refine ⟨m, a, b, c, w, q, ?_, hm, hnone, fun x ha hn hr hs hw hc => hsome x ha hn ?_ ?_ ?_ ?_⟩
  · rw [PathRec.ending, hq, hwatch, hraws]
    rfl
  all_goals rw [hraws]; assumption

/-! ### The send queue at a frame start (R108) -/

/-- An ACCEPT that is dropped names another record. -/
def PathRec.sparedBy (p : PathRec) (m : Msg) : Prop := ∀ b, m = .accept b → b.tag ≠ p.tag ∨ p.role ≠ .sink

theorem State.path_of_findTag {s : State} {r : Role} {t g : Nat} {p : PathRec} (hs : Sparse.rising s.ptb.paths = true)
    (hf : s.findTag r t = some (g, p)) : s.path g = some p ∧ p.role = r ∧ p.tag = t := by
  have hsome := List.find?_some hf
  simp only [Bool.and_eq_true, beq_iff_eq] at hsome
  exact ⟨Sparse.find_of_mem hs (List.mem_of_find?_eq_some hf), hsome⟩

theorem State.answerDropped_spares {s : State} {h : Nat} {p : PathRec} {m : Msg} (hs : Sparse.rising s.ptb.paths = true)
    (hp : s.path h = some p) (hm : p.sparedBy m) : State.Reworks (· ≠ h) s (s.answerDropped m) := by
  cases m with
  | accept b =>
    simp only [State.answerDropped]
    split
    · exact .refl s
    · rename_i g r hfind
      obtain ⟨hpath, hrole, htag⟩ := State.path_of_findTag hs hfind
      have hg : g ≠ h := by
        rintro rfl
        rw [hp, Option.some.injEq] at hpath
        subst hpath
        rcases hm b rfl with hne | hne
        · exact hne htag.symm
        · exact hne hrole
      have hmod (f : SnkHw → SnkHw) (hf : ∀ k : SnkHw, (f k).check = k.check ∧ (f k).loss = k.loss) :
          State.Reworks (· ≠ h) s (s.modSk g f) :=
        .modSk hg fun k => ⟨fun hc => (hf k).1 ▸ hc, fun hc => (hf k).2 ▸ hc⟩
      split
      · exact hmod _ fun _ => ⟨rfl, rfl⟩
      · split
        · exact (hmod (fun k => { k with status := none, cells := none }) fun _ => ⟨rfl, rfl⟩).trans
            (.request_rests (b := .listening) hg rfl)
        · exact .refl s
  | claim _ => exact .refl s
  | refuse _ _ => exact .refl s
  | release _ _ => exact .refl s

theorem State.foldl_answerDropped_spares {h : Nat} {p : PathRec} (l : List QueuedMsg) :
    ∀ s : State, Sparse.rising s.ptb.paths = true → s.path h = some p → (∀ q ∈ l, p.sparedBy q.msg) →
    State.Reworks (· ≠ h) s (l.foldl (fun s q => s.answerDropped q.msg) s) := by
  induction l with
  | nil => exact fun s _ _ _ => .refl s
  | cons q l ih =>
    intro s hs hp hl
    have hq := State.answerDropped_spares hs hp (hl q (by simp))
    exact hq.trans (ih _ (hq.handles_eq hs).2 ((hq.path_eq (by simp)).trans hp)
      fun q' hq' => hl q' (List.mem_cons_of_mem _ hq'))

theorem State.dropStale_spares {s : State} {h : Nat} {p : PathRec} (hs : Sparse.rising s.ptb.paths = true)
    (hp : s.path h = some p) (hq : ∀ q ∈ s.hwy.sendQ, p.sparedBy q.msg) : State.Reworks (· ≠ h) s s.dropStale := by
  have hqueue : State.Reworks (· ≠ h) s (s.setHwy { s.hwy with sendQ := s.hwy.sendQ.filter (fun q => !q.stale) }) :=
    .setHwy (.of_sendQ (List.length_filter_le _ _))
  exact hqueue.trans (State.foldl_answerDropped_spares _ _ hs hp fun q hmem => hq q (List.mem_filter.mp hmem).1)

/-- The queue's ageing leaves a record that no queued ACCEPT names. -/
theorem State.ageQueue_spares {s : State} {h : Nat} {p : PathRec} (hs : Sparse.rising s.ptb.paths = true)
    (hp : s.path h = some p) (hq : ∀ q ∈ s.hwy.sendQ, p.sparedBy q.msg) : State.Reworks (· ≠ h) s s.ageQueue := by
  have haged : State.Reworks (· ≠ h) s
      (s.setHwy { s.hwy with sendQ := s.hwy.sendQ.map (fun q => { q with age := q.age + 1 }) }) :=
    .setHwy (.of_sendQ (Nat.le_of_eq (List.length_map ..)))
  refine haged.trans (State.dropStale_spares hs hp fun q hmem => ?_)
  obtain ⟨q', hq', rfl⟩ := List.mem_map.mp hmem
  exact hq q' hq'

/-- A frame start up to its boundary, on a record that no queued ACCEPT names: the frame ends for it. -/
theorem State.shown_ended {s : State} {h : Nat} {p : PathRec} (hs : Sparse.rising s.ptb.paths = true)
    (hp : s.path h = some p) (hq : ∀ q ∈ s.hwy.sendQ, p.sparedBy q.msg) (t num : Nat) :
    (s.ended t num).shown h = some (p.ending s.hwy.passed s.mayCreate s.ftm.frame, s.listed h) ∧
    ((∀ m ∈ s.hwy.mons, m.isFor h = false) → ∀ m ∈ (s.ended t num).hwy.mons, m.isFor h = false) := by
  have hshown : (s.endFrame.setFtm (s.endFrame.ftm.started t num)).shown h =
      some (p.ending s.hwy.passed s.mayCreate s.ftm.frame, s.listed h) :=
    (s.shown_endFrame h).trans (by rw [State.shown_of_path hp]; rfl)
  have hrise : Sparse.rising (s.endFrame.setFtm (s.endFrame.ftm.started t num)).ptb.paths = true :=
    (s.endFrame_sameStation.handles hs).2
  obtain ⟨m, a, b, c, w, q, he, _⟩ := p.ending_eq s.hwy.passed s.mayCreate s.ftm.frame
  have hspares (q' : QueuedMsg) (hq' : p.sparedBy q'.msg) :
      (p.ending s.hwy.passed s.mayCreate s.ftm.frame).sparedBy q'.msg := by rw [he]; exact hq'
  have hage := State.ageQueue_spares hrise (State.path_of_shown hshown).1 fun q' hmem => hspares q' (hq q' hmem)
  exact ⟨(hage.shown_eq (by simp)).trans hshown, fun hm => hage.unbound (by simp) hm⟩

end Sys2Proof.Machine

/-! ## Proofs: a settled record at the FRAME_START of a boundary -/

namespace Sys2Proof.Machine

/-! ### Up to the effective boundaries -/

/-- What the frame that ends and the counts of a boundary leave of a record. -/
structure PathRec.Counted (p r : PathRec) : Prop where
  role : r.role = p.role
  state : r.state = p.state
  sink : r.sink = p.sink
  bmove : r.bmove = p.bmove
  hw : r.hw.cells = p.hw.cells ∧ r.hw.move = p.hw.move ∧ r.hw.acceptHeard = p.hw.acceptHeard ∧
    r.hw.refusal = p.hw.refusal
  attempt : p.live = false → r.hw.attempt = p.hw.attempt
  sk : r.sk.cells = p.sk.cells ∧ r.sk.status = p.sk.status ∧ r.sk.move = p.sk.move

theorem PathRec.Counted.trans {p q r : PathRec} (h : p.Counted q) (h' : q.Counted r) : p.Counted r := by
  have hlive : q.live = p.live := by rw [PathRec.live, PathRec.live, h.role, h.state]
  obtain ⟨h1, h2, h3, h4⟩ := h.hw
  obtain ⟨h1', h2', h3', h4'⟩ := h'.hw
  obtain ⟨k1, k2, k3⟩ := h.sk
  obtain ⟨k1', k2', k3'⟩ := h'.sk
  exact ⟨h'.role.trans h.role, h'.state.trans h.state, h'.sink.trans h.sink, h'.bmove.trans h.bmove,
    ⟨h1'.trans h1, h2'.trans h2, h3'.trans h3, h4'.trans h4⟩,
    fun hl => (h'.attempt (hlive.trans hl)).trans (h.attempt hl), ⟨k1'.trans k1, k2'.trans k2, k3'.trans k3⟩⟩

theorem PathRec.Counted.live_eq {p r : PathRec} (h : p.Counted r) : r.live = p.live := by
  rw [PathRec.live, PathRec.live, h.role, h.state]

theorem PathRec.Counted.receives_eq {p r : PathRec} (h : p.Counted r) : r.receives = p.receives := by
  rw [PathRec.receives, PathRec.receives, h.role, h.live_eq]

theorem PathRec.undone_of_none {p : PathRec} (hu : p.undo = none) : p.undone = p := by
  simp only [PathRec.undone, hu]
  rw [← hu]

/-- A backoff that runs on a record that is not COLLIDED changes its count alone. -/
theorem PathRec.backedOff_eq {p : PathRec} (hs : p.state ≠ .collided) :
    ∃ b, p.backedOff = { p with hw := { p.hw with backoff := b } } := by
  unfold PathRec.backedOff PathRec.asked
  split
  · rename_i hb
    exact ⟨none, by rw [← hb]⟩
  · split
    · exact ⟨none, by simp only⟩
    · exact ⟨_, rfl⟩

theorem PathRec.cleanBoundary_eq (p : PathRec) : ∃ a c, p.cleanBoundary =
    { p with hw := { p.hw with attempt := a, clean := c } } ∧ (p.live = false → a = p.hw.attempt) := by
  unfold PathRec.cleanBoundary
  split
  · rename_i h
    exact ⟨_, _, rfl, fun hl => by simp [hl] at h⟩
  · exact ⟨_, _, rfl, fun _ => rfl⟩

/-- A record that no undo is owed and that is not COLLIDED, before its loss count. -/
theorem PathRec.counting_eq {p : PathRec} (hu : p.undo = none) (hs : p.state ≠ .collided) : ∃ b a c, p.counting =
    { p with hw := { p.hw with backoff := b, attempt := a, clean := c } } ∧ (p.live = false → a = p.hw.attempt) := by
  obtain ⟨b, hb⟩ := PathRec.backedOff_eq hs
  obtain ⟨a, c, hc, ha⟩ := p.backedOff.cleanBoundary_eq
  rw [PathRec.counting, PathRec.undone_of_none hu, hc, hb]
  exact ⟨b, a, c, rfl, fun hl => (ha (by rw [hb]; exact hl)).trans (by rw [hb])⟩

theorem PathRec.lossCounted_eq (p : PathRec) : ∃ l, p.lossCounted = { p with sk := { p.sk with loss := l } } := by
  unfold PathRec.lossCounted
  split <;> exact ⟨_, rfl⟩

/-- The record of a settled state at the effective boundaries, its loss count, and its watch. -/
theorem PathRec.ended_counted {p : PathRec} (hu : p.undo = none) (hs : p.state ≠ .collided)
    (hl : p.receives = true → p.sk.loss = 0) (m : Sparse Nat) (a b c : Bool) (w : Option Nat) (q : Squelch) :
    (p.ended m a b c w q).counting.lossEnds = false ∧
    p.Counted (p.ended m a b c w q).counting.lossCounted ∧
    (p.ended m a b c w q).counting.lossCounted.sk.watch = w := by
  obtain ⟨bo, at', cl, hc, hat⟩ := PathRec.counting_eq (p := p.ended m a b c w q) hu hs
  obtain ⟨l, hloss⟩ := (p.ended m a b c w q).counting.lossCounted_eq
  rw [hloss, hc]
  refine ⟨?_, ⟨rfl, rfl, rfl, rfl, ⟨rfl, rfl, rfl, rfl⟩, hat, ⟨rfl, rfl, rfl⟩⟩, rfl⟩
  cases hr : p.receives with
  | false =>
    have : (p.ended m a b c w q).receives = false := hr
    exact Bool.and_eq_false_iff.mpr (.inl (Bool.and_eq_false_iff.mpr (.inl this)))
  | true =>
    have : ¬ 2 ≤ p.sk.loss + 1 := by rw [hl hr]; decide
    exact Bool.and_eq_false_iff.mpr (.inr (decide_eq_false this))

/-! ### After the boundary -/

/-- What the frame after a boundary opens with, of a record as its steps have left it. -/
structure PathRec.Opens (r q : PathRec) : Prop where
  state : r.state ≠ .defined → q.state = r.state
  sink : q.sink = r.sink
  bmove : q.bmove = r.bmove
  last : q.lastCompletion = r.lastCompletion
  hw : q.hw.cells = r.hw.cells ∧ q.hw.move = r.hw.move ∧ q.hw.acceptHeard = r.hw.acceptHeard ∧
    q.hw.clean = r.hw.clean ∧ q.hw.attempt = r.hw.attempt ∧ q.hw.refusal = r.hw.refusal
  sk : q.sk.cells = r.sk.cells ∧ q.sk.status = r.sk.status ∧ q.sk.missing = r.sk.missing ∧ q.sk.loss = r.sk.loss ∧
    q.sk.watch = r.sk.watch ∧ q.sk.move = r.sk.move
  check : q.sk.check = 0
  copy : q.sk.copy = if r.receives then r.sk.cells else none

theorem PathRec.localEnable_eq (p : PathRec) : ∃ e st, p.localEnable = { p with enablePending := e, state := st } ∧
    (p.state ≠ .defined → st = p.state) ∧ (p.role ≠ .loc → st = p.state) := by
  unfold PathRec.localEnable
  split
  · rename_i h
    exact ⟨_, _, rfl, fun hs => if_neg hs, fun hr => absurd h.1 hr⟩
  · exact ⟨_, _, rfl, fun _ => rfl, fun _ => rfl⟩

/-- A sink receives as before when a pending enable is taken. -/
theorem PathRec.receives_localEnable (p : PathRec) : p.localEnable.receives = p.receives := by
  unfold PathRec.localEnable
  split
  · rename_i h
    have hrole : (p.role == .sink) = false := by rw [h.1]; rfl
    simp only [PathRec.receives, hrole, Bool.false_and]
  · rfl

theorem PathRec.opens_of_steady {r q : PathRec} (h : q.steady = r.localEnable.restartMultiframe.steady)
    (hc : q.sk.copy = if r.localEnable.restartMultiframe.receives then r.localEnable.restartMultiframe.sk.cells else none) :
    r.Opens q := by
  have hreceives : r.localEnable.restartMultiframe.receives = r.receives := r.receives_localEnable
  obtain ⟨e, st, he, hst, _⟩ := r.localEnable_eq
  rw [hreceives] at hc
  rw [he] at h hc
  exact ⟨fun hs => (congrArg PathRec.state h :).trans (hst hs), (congrArg PathRec.sink h :), (congrArg PathRec.bmove h :),
    (congrArg PathRec.lastCompletion h :),
    ⟨(congrArg (fun p => p.hw.cells) h :), (congrArg (fun p => p.hw.move) h :), (congrArg (fun p => p.hw.acceptHeard) h :),
      (congrArg (fun p => p.hw.clean) h :), (congrArg (fun p => p.hw.attempt) h :), (congrArg (fun p => p.hw.refusal) h :)⟩,
    ⟨(congrArg (fun p => p.sk.cells) h :), (congrArg (fun p => p.sk.status) h :), (congrArg (fun p => p.sk.missing) h :),
      (congrArg (fun p => p.sk.loss) h :), (congrArg (fun p => p.sk.watch) h :), (congrArg (fun p => p.sk.move) h :)⟩,
    (congrArg (fun p => p.sk.check) h :), hc⟩

/-! ### The FRAME_START of a boundary -/

theorem State.settled_spares {s : State} {h : Nat} {p : PathRec} (hset : s.settled h p) :
    ∀ q ∈ s.hwy.sendQ, p.sparedBy q.msg := by
  obtain ⟨_, _, _, hq⟩ := hset
  exact fun q hmem b hb => .inl (hq q hmem b hb)

theorem State.mayCreate_eq (s : State) : s.mayCreate = true ↔ s.hwy.station = .warming ∨ s.hwy.station = .joined := by
  unfold State.mayCreate
  cases s.hwy.station <;> simp

/-- A record that no queued ACCEPT names, as the steps of a boundary find it. -/
theorem State.shown_counted {s : State} {h : Nat} {p : PathRec} (hs : Sparse.rising s.ptb.paths = true)
    (hp : s.path h = some p) (hspares : ∀ q ∈ s.hwy.sendQ, p.sparedBy q.msg) (t : Nat) : ∃ m a b c w q,
    (s.ended t 0).counted.shown h = some (p.ended m a b c w q, s.listed h) ∧
    Sparse.rising (s.ended t 0).counted.ptb.paths = true ∧
    ((∀ m ∈ s.hwy.mons, m.isFor h = false) → ∀ m ∈ (s.ended t 0).counted.hwy.mons, m.isFor h = false) ∧
    (p.receives = false → m = p.sk.missing) ∧ (s.mayCreate = false → w = none) ∧
    (∀ x, s.mayCreate = true → s.ftm.frame ≠ 0 → p.role = .sink → p.state = .listening → p.sk.watch = some x →
      completeRun p.sk.watchSeen p.k x = true → w = some x) := by
  obtain ⟨hended, hunbound⟩ := State.shown_ended hs hp hspares t 0
  obtain ⟨hfixed, _⟩ := s.ended_fixed t 0
  obtain ⟨hcfixed, hcstation, _, hcptb⟩ := (s.ended t 0).counted_cases
  obtain ⟨m, a, b, c, w, q, he, hmissing, hnone, hwatch⟩ := p.ending_eq s.hwy.passed s.mayCreate s.ftm.frame
  obtain ⟨q', hq'⟩ := (p.ended m a b c w q).squelchBoundary_eq (s.ended t 0).cbl.holdoff
  refine ⟨m, a, b, c, w, q', ?_, (hcfixed.handles ((hfixed.handles hs).2)).2, fun hm => ?_, hmissing, hnone, hwatch⟩
  · rw [State.shown_of_ptb hcptb, State.shown_mapPaths, hended, he]
    exact congrArg (fun e => some (e, s.listed h)) hq'
  · rw [hcstation.mons]
    exact hunbound hm

/-- A settled record at the FRAME_START of a boundary takes its own steps, from its counts on. -/
theorem State.frameStart_settled {s : State} {h : Nat} {p : PathRec} (hT : s.TablesOk) (hset : s.settled h p)
    (hn : (s.ftm.frame + 1) % 16 = 0) (hs : p.state ≠ .collided) (hl : p.receives = true → p.sk.loss = 0) :
    ∃ (r : PathRec) (awake busy : Bool), p.Counted r ∧ (s.mayCreate = true → awake = true) ∧
      (∀ x, s.mayCreate = true → p.role = .sink → p.state = .listening → p.sk.watch = some x →
        completeRun p.sk.watchSeen p.k x = true → r.sk.watch = some x) ∧
      ∀ y, y = tailStepped s.cbl.guard awake busy (claimBegun (sinkBegun (r, s.listed h))) →
        y.1.localEnable.seeks = false →
        ∃ (u : State) (q : PathRec), exec .frameStart s = .next u ∧ u.path h = some q ∧ y.1.Opens q ∧ u.listed h = y.2 := by
  have hspares := State.settled_spares hset
  obtain ⟨hp, hmons, hundo, _⟩ := hset
  set t := s.ftm.lastStart + s.ftm.period with ht
  have hnext : s.nextFrame = 0 := hn
  obtain ⟨m, a, b, c, w, q, hcounted, hrise, hunbound, _, _, hwatch⟩ := State.shown_counted hT.1 hp hspares t
  obtain ⟨hfixed, _, hstation, _⟩ := s.ended_fixed t 0
  set v := s.ended t 0 with hv
  obtain ⟨hcfixed, hcstation, _⟩ := v.counted_cases
  obtain ⟨hends, hrec, hrecwatch⟩ := PathRec.ended_counted hundo hs hl m a b c w q
  obtain ⟨busy, hmeets⟩ := State.Meets.stepRecords hrise hcounted (hunbound hmons) hends
  refine ⟨_, v.counted.mayCreate, busy, hrec, fun hm => ?_, fun x hm hr hst hw hcomp => ?_, fun y hy hseek => ?_⟩
  · rw [State.mayCreate_eq] at hm ⊢
    exact hcstation.awake (hstation ▸ hm)
  · exact hrecwatch.trans (hwatch x hm (by omega) hr hst hw hcomp)
  · have hguard : v.counted.cbl.guard = s.cbl.guard := hcfixed.cbl.2.trans hfixed.cbl.2
    have hy' : y = boundaryStepped s.cbl.guard v.counted.mayCreate busy (p.ended m a b c w q, s.listed h) := hy
    rw [hguard, ← hy'] at hmeets
    have hboundary := hmeets.boundary fun _ => hseek
    obtain ⟨hbp, hbl⟩ := State.path_of_shown hboundary
    obtain ⟨r, hr, hsteady, _, hcopy⟩ := State.path_beginFrame hbp s.ftm.frame
    have hexec : exec .frameStart s = .next (s.startFrame t s.nextFrame) := rfl
    rw [State.startFrame_eq, hnext, if_pos rfl] at hexec
    refine ⟨v.boundary.beginFrame s.ftm.frame, r, hexec, hr, ?_, ?_⟩
    · exact PathRec.opens_of_steady hsteady hcopy
    · exact (State.listed_congr (v.boundary.beginFrame_sameSteady s.ftm.frame).completions h).trans hbl

end Sys2Proof.Machine

/-! ## Proofs: the effective boundaries, and the phases of a move at a boundary -/

namespace Sys2Proof.Machine

/-! ### Steps that leave a record -/

section
variable {x : PathRec × Bool}

theorem sinkBegun_of_state (h : x.1.state ≠ .accepted) : sinkBegun x = x := if_neg fun h' => h h'.1

theorem claimBegun_of_state (h : x.1.state ≠ .claiming) : claimBegun x = x := if_neg fun h' => h h'.1

theorem cellsStepped_of_none (g : Nat) (h : x.1.hw.move = none) : cellsStepped g x = x := by simp only [cellsStepped, h]

theorem PathRec.sinkStepped_of_none {p : PathRec} (g : Nat) (h : p.sk.move = none) : p.sinkStepped g = p := by
  simp only [PathRec.sinkStepped, h]

theorem berthsStepped_of_none (g : Nat) (h : x.1.bmove = none) : berthsStepped g x = x := by
  simp only [berthsStepped, h]

theorem berthsBegun_of_none (b : Bool) (h : x.1.bmove = none) : berthsBegun b x = x := by simp only [berthsBegun, h]

theorem berthsBegun_of_some {m : BerthMove} (b : Bool) (h : x.1.bmove = some m) (hm : m.phase ≠ .pending) :
    berthsBegun b x = x := by simp only [berthsBegun, h, if_neg hm]

theorem adopted_of_state (a : Bool) (h : x.1.state ≠ .listening) : adopted a x = x := by
  unfold adopted
  split
  · rfl
  · exact if_neg fun h' => h h'.1

/-- The steps after the monitors leave a record that moves nothing, up to the adoption of a run. -/
theorem tailStepped_of_unmoved (g : Nat) (a b : Bool) (hc : x.1.hw.move = none) (hs : x.1.sk.move = none)
    (hb : x.1.bmove = none) : tailStepped g a b x = adopted a x := by
  unfold tailStepped
  rw [cellsStepped_of_none g hc, PathRec.sinkStepped_of_none g hs, berthsStepped_of_none g hb, berthsBegun_of_none b hb]

end

theorem PathRec.receives_of {p : PathRec} (hr : p.role = .sink) (hs : p.state = .receiving ∨ p.state = .moving) :
    p.receives = true := by
  rcases hs with hs | hs <;> simp [PathRec.receives, PathRec.live, isLive, hr, hs]

theorem PathRec.not_receives_of_role {p : PathRec} (hr : p.role ≠ .sink) : p.receives = false := by
  simp [PathRec.receives, hr]

theorem PathRec.not_receives_of_state {p : PathRec} (hs : p.state ≠ .receiving) (hm : p.state ≠ .moving) :
    p.receives = false := by
  unfold PathRec.receives PathRec.live isLive
  cases p.role <;> simp [hs, hm]

theorem PathRec.seeks_localEnable {p : PathRec} (h : p.seeks = false) : p.localEnable.seeks = false := by
  unfold PathRec.localEnable
  split
  · rename_i hl
    have hrole : (p.role == .source) = false := by rw [hl.1]; rfl
    simp only [PathRec.seeks, hrole, Bool.false_and]
  · exact h

theorem PathRec.seeks_of_role {p : PathRec} (h : p.role ≠ .source) : p.seeks = false := by simp [PathRec.seeks, h]

theorem PathRec.seeks_of_state {p : PathRec} (h : p.state ≠ .waiting) (h' : p.state ≠ .moving) : p.seeks = false := by
  simp [PathRec.seeks, h, h']

theorem PathRec.seeks_of_move {p : PathRec} {m : CellMove} (h : p.state ≠ .waiting) (hm : p.hw.move = some m)
    (hp : m.phase ≠ .seeking) : p.seeks = false := by simp [PathRec.seeks, h, hm, hp]

/-! ### The effective boundaries (R131, R133, R142) -/

/-- A sink whose ACCEPT was sent receives from its effective boundary on. -/
theorem sinkStarts {s : State} {h : Nat} {p : PathRec} (hT : s.TablesOk) (hset : s.settled h p)
    (hn : (s.ftm.frame + 1) % 16 = 0) (hb : p.bmove = none) (hm : p.hw.move = none) (hk : p.sk.move = none)
    (hr : p.role = .sink) (hst : p.state = .accepted) (hsent : p.sk.status = some .sent) :
    ∃ (u : State) (q : PathRec), exec .frameStart s = .next u ∧ u.path h = some q ∧ q.state = .receiving ∧
      q.sk.cells = p.sk.cells ∧ q.sk.copy = p.sk.cells ∧ q.sk.status = none ∧ q.sk.missing = [] ∧ q.sk.loss = 0 ∧
      q.sk.check = 0 ∧ q.lastCompletion = some .sinkStarted ∧ u.listed h = true := by
  obtain ⟨r, a, b, hrec, _, _, hrun⟩ := State.frameStart_settled hT hset hn (by simp [hst])
    (fun h => by rw [PathRec.not_receives_of_state (by simp [hst]) (by simp [hst])] at h; cases h)
  obtain ⟨hcells, hstatus, hmove⟩ := hrec.sk
  let y : PathRec × Bool := posting .sinkStarted
    ({ r with state := .receiving, sk := { r.sk.zeroed with status := none } }, s.listed h)
  have hstate : y.1.state = .receiving := by simp [y, posting]
  have hrole : y.1.role = .sink := by simp [y, posting, hrec.role, hr]
  have hbegun : sinkBegun (r, s.listed h) = y := if_pos ⟨hrec.state.trans hst, hstatus.trans hsent⟩
  have hy : y = tailStepped s.cbl.guard a b (claimBegun (sinkBegun (r, s.listed h))) := by
    rw [hbegun, claimBegun_of_state (by simp [hstate]), tailStepped_of_unmoved, adopted_of_state _ (by simp [hstate])]
    · simp [y, posting, hrec.hw.2.1, hm]
    · simp [y, posting, SnkHw.zeroed, hmove, hk]
    · simp [y, posting, hrec.bmove, hb]
  obtain ⟨u, q, hu, hq, ho, hl⟩ := hrun y hy (PathRec.seeks_localEnable (PathRec.seeks_of_role (by simp [hrole])))
  obtain ⟨hqc, hqs, hqm, hql, _, _⟩ := ho.sk
  have hyc : y.1.sk.cells = p.sk.cells := by simp [y, posting, SnkHw.zeroed, hcells]
  refine ⟨u, q, hu, hq, (ho.state (by simp [hstate])).trans hstate, hqc.trans hyc, ?_, hqs.trans ?_, hqm.trans ?_,
    hql.trans ?_, ho.check, ho.last.trans ?_, hl⟩
  · rw [ho.copy, if_pos (PathRec.receives_of hrole (.inl hstate)), hyc]
  all_goals simp [y, posting, SnkHw.zeroed]

/-- A claimant that has heard its ACCEPT carries from its effective boundary on. -/
theorem claimTakesEffect {s : State} {h : Nat} {p : PathRec} (hT : s.TablesOk) (hset : s.settled h p)
    (hn : (s.ftm.frame + 1) % 16 = 0) (hb : p.bmove = none) (hm : p.hw.move = none) (hk : p.sk.move = none)
    (hst : p.state = .claiming) (ha : p.hw.acceptHeard = true) :
    ∃ (u : State) (q : PathRec), exec .frameStart s = .next u ∧ u.path h = some q ∧ q.state = .carrying ∧
      q.hw.cells = p.hw.cells ∧ q.hw.acceptHeard = false ∧ q.hw.clean = 0 ∧ q.hw.attempt = p.hw.attempt ∧
      q.hw.refusal = p.hw.refusal ∧ q.lastCompletion = some .claimAccepted ∧ u.listed h = true := by
  obtain ⟨r, a, b, hrec, _, _, hrun⟩ := State.frameStart_settled hT hset hn (by simp [hst])
    (fun h => by rw [PathRec.not_receives_of_state (by simp [hst]) (by simp [hst])] at h; cases h)
  obtain ⟨hcells, hmove, hheard, hrefusal⟩ := hrec.hw
  have hdead : p.live = false := by
    unfold PathRec.live isLive
    cases p.role <;> simp [hst]
  let y : PathRec × Bool := posting .claimAccepted
    ({ r with state := .carrying, hw := { r.hw with acceptHeard := false, clean := 0 } }, s.listed h)
  have hstate : y.1.state = .carrying := by simp [y, posting]
  have hrst : r.state = .claiming := hrec.state.trans hst
  have hbegun : claimBegun (r, s.listed h) = y := if_pos ⟨hrst, hheard.trans ha⟩
  have hy : y = tailStepped s.cbl.guard a b (claimBegun (sinkBegun (r, s.listed h))) := by
    rw [sinkBegun_of_state (by simp [hrst]), hbegun, tailStepped_of_unmoved, adopted_of_state _ (by simp [hstate])]
    · simp [y, posting, hmove, hm]
    · simp [y, posting, hrec.sk.2.2, hk]
    · simp [y, posting, hrec.bmove, hb]
  obtain ⟨u, q, hu, hq, ho, hl⟩ := hrun y hy
    (PathRec.seeks_localEnable (PathRec.seeks_of_state (by simp [hstate]) (by simp [hstate])))
  obtain ⟨hqc, _, hqh, hqcl, hqa, hqr⟩ := ho.hw
  refine ⟨u, q, hu, hq, (ho.state (by simp [hstate])).trans hstate, hqc.trans ?_, hqh.trans ?_, hqcl.trans ?_,
    hqa.trans ?_, hqr.trans ?_, ho.last.trans ?_, hl⟩
  all_goals simp [y, posting, hcells, hrefusal, hrec.attempt hdead]

/-- A sink that has watched a complete run receives it from the boundary on. -/
theorem runIsAdopted {s : State} {h x : Nat} {p : PathRec} (hT : s.TablesOk) (hset : s.settled h p)
    (hn : (s.ftm.frame + 1) % 16 = 0) (hb : p.bmove = none) (hm : p.hw.move = none) (hk : p.sk.move = none)
    (hr : p.role = .sink) (hst : p.state = .listening) (hw : p.sk.watch = some x)
    (hc : completeRun p.sk.watchSeen p.k x = true) (hmay : s.mayCreate = true) :
    ∃ (u : State) (q : PathRec), exec .frameStart s = .next u ∧ u.path h = some q ∧ q.state = .receiving ∧
      q.sk.cells = some x ∧ q.sk.copy = some x ∧ q.sk.watch = none ∧ q.sk.missing = [] ∧ q.sk.loss = 0 ∧
      q.sk.check = 0 ∧ q.lastCompletion = some .sinkStarted ∧ u.listed h = true := by
  obtain ⟨r, a, b, hrec, hawake, hwatch, hrun⟩ := State.frameStart_settled hT hset hn (by simp [hst])
    (fun h => by rw [PathRec.not_receives_of_state (by simp [hst]) (by simp [hst])] at h; cases h)
  have hrst : r.state = .listening := hrec.state.trans hst
  have hrw : r.sk.watch = some x := hwatch x hmay hr hst hw hc
  let y : PathRec × Bool := posting .sinkStarted
    ({ r with state := .receiving, sk := { r.sk.zeroed with cells := some x, watch := none } }, s.listed h)
  have hstate : y.1.state = .receiving := by simp [y, posting]
  have hrole : y.1.role = .sink := by simp [y, posting, hrec.role, hr]
  have hadopt : adopted a (r, s.listed h) = y := by
    simp only [adopted, hrw]
    exact if_pos ⟨hrst, hawake hmay⟩
  have hy : y = tailStepped s.cbl.guard a b (claimBegun (sinkBegun (r, s.listed h))) := by
    rw [sinkBegun_of_state (by simp [hrst]), claimBegun_of_state (by simp [hrst]),
      tailStepped_of_unmoved _ _ _ (hrec.hw.2.1.trans hm) (hrec.sk.2.2.trans hk) (hrec.bmove.trans hb), hadopt]
  obtain ⟨u, q, hu, hq, ho, hl⟩ := hrun y hy (PathRec.seeks_localEnable (PathRec.seeks_of_role (by simp [hrole])))
  obtain ⟨hqc, _, hqm, hql, hqw, _⟩ := ho.sk
  have hyc : y.1.sk.cells = some x := by simp [y, posting, SnkHw.zeroed]
  refine ⟨u, q, hu, hq, (ho.state (by simp [hstate])).trans hstate, hqc.trans hyc, ?_, hqw.trans ?_, hqm.trans ?_,
    hql.trans ?_, ho.check, ho.last.trans ?_, hl⟩
  · rw [ho.copy, if_pos (PathRec.receives_of hrole (.inl hstate)), hyc]
  all_goals simp [y, posting, SnkHw.zeroed]

/-- Settles O36. -/
theorem highwayCountsExpire : Obligations.HighwayCountsExpire := by
  refine ⟨fun s h p hp hb => exec_backoffEnd hp hb,
    fun s h p c o hT hm ho hc hmove hp hst _ _ hl => claimExpires hT hm ho hc hmove hp hst hl,
    fun s h p hp hc hr hl hrun => exec_cleanCountExpiry hp hc hr hl hrun,
    fun s h p hp hr hl hc hb hm hq hlisted => cellLossFalls hp hr hl hc hb hm hq hlisted,
    fun s hs hw => exec_warmingEnd hs hw, fun s h p hT hset hn hb hm hk => ⟨?_, ?_, ?_⟩,
    fun s h p x hp hst ha hx => State.claimEffective_entries hp hst ha hx⟩
  · exact fun hr hst hsent => sinkStarts hT hset hn hb hm hk hr hst hsent
  · exact fun _ hst ha => claimTakesEffect hT hset hn hb hm hk hst ha
  · exact fun x hr hst hw hc hmay => runIsAdopted hT hset hn hb hm hk hr hst hw hc hmay

end Sys2Proof.Machine

/-! ## Proofs: the phases of a move at a boundary -/

namespace Sys2Proof.Machine

/-! ### Common steps -/

theorem PathRec.sinkStepped_eq (g : Nat) (p : PathRec) : ∃ k, p.sinkStepped g = { p with sk := k } := by
  unfold PathRec.sinkStepped
  cases p.sk.move with
  | none => exact ⟨p.sk, rfl⟩
  | some m =>
    dsimp only
    cases m.status with
    | queued => exact ⟨p.sk, rfl⟩
    | sent => exact ⟨_, rfl⟩
    | bridging =>
      dsimp only
      split <;> exact ⟨_, rfl⟩

/-- A record in use is in use after a frame start. -/
theorem State.path_frameStart {s : State} (hT : s.TablesOk) {h : Nat} {p : PathRec} (hp : s.path h = some p) :
    ∃ u q, exec .frameStart s = .next u ∧ u.path h = some q := by
  have hexec : exec .frameStart s = .next (s.startFrame (s.ftm.lastStart + s.ftm.period) s.nextFrame) := rfl
  obtain ⟨hkeep, hrise⟩ := (s.startFrame_fixed (s.ftm.lastStart + s.ftm.period) s.nextFrame).1.handles hT.1
  have hmem := State.mem_handles_of_path hp
  rw [← hkeep] at hmem
  obtain ⟨⟨g, q⟩, hq, rfl⟩ := List.mem_map.mp hmem
  exact ⟨_, q, hexec, Sparse.find_of_mem hrise hq⟩

/-- A record in MOVING passes the effective boundaries as it is. -/
theorem claimBegun_of_moving {x : PathRec × Bool} (h : x.1.state = .moving) : claimBegun (sinkBegun x) = x := by
  rw [sinkBegun_of_state (by simp [h]), claimBegun_of_state (by simp [h])]

/-! ### Berths (R149) -/

/-- A LOCAL record that moves its berths, at a boundary: what its step makes of it is what the frame opens with. -/
theorem State.frameStart_berths {s : State} {h : Nat} {p : PathRec} {m : BerthMove} (hT : s.TablesOk)
    (hset : s.settled h p) (hn : (s.ftm.frame + 1) % 16 = 0) (hst : p.state = .moving) (hr : p.role = .loc)
    (hc : p.hw.move = none) (hm : p.bmove = some m) (hph : m.phase ≠ .pending) :
    ∃ r l u q, r.role = .loc ∧ r.state = .moving ∧ r.sink = p.sink ∧ r.bmove = some m ∧ exec .frameStart s = .next u ∧
      u.path h = some q ∧ (berthsStepped s.cbl.guard (r, l)).1.Opens q ∧
      u.listed h = (berthsStepped s.cbl.guard (r, l)).2 ∧ (berthsStepped s.cbl.guard (r, l)).1.state ≠ .defined := by
  obtain ⟨r, a, b, hrec, _, _, hrun⟩ := State.frameStart_settled hT hset hn (by simp [hst])
    (fun h => by rw [PathRec.not_receives_of_role (by simp [hr])] at h; cases h)
  obtain ⟨k, hk⟩ := r.sinkStepped_eq s.cbl.guard
  have hrst : r.state = .moving := hrec.state.trans hst
  have hrole : r.role = .loc := hrec.role.trans hr
  have hbm : r.bmove = some m := hrec.bmove.trans hm
  set x : PathRec × Bool := ({ r with sk := k }, s.listed h) with hx
  set y := berthsStepped s.cbl.guard x with hyd
  have hxbm : x.1.bmove = some m := hbm
  have hrolex : x.1.role = .loc := hrole
  have hstx : x.1.state = .moving := hrst
  have hspec : y.1.role = .loc ∧ (y.1.state = .moving ∨ y.1.state = .carrying) ∧
      ∀ n, y.1.bmove = some n → n.phase ≠ .pending := by
    have hlive : x.1.liveState = .carrying := by rw [PathRec.liveState, hrolex]; rfl
    simp only [hyd, berthsStepped, hxbm]
    cases hph' : m.phase with
    | pending => exact absurd hph' hph
    | bridge =>
      dsimp only
      split
      · exact ⟨hrolex, .inl hstx, fun n hn => by rw [Option.some.injEq] at hn; subst hn; exact fun h => nomatch h⟩
      · exact ⟨hrolex, .inl hstx, fun n hn => by rw [Option.some.injEq] at hn; subst hn; exact fun h => nomatch h⟩
    | retiring =>
      refine ⟨by simpa [posting, PathRec.asked] using hrolex, .inr ?_, fun n hn => by simp [posting, PathRec.asked] at hn⟩
      simp [posting, PathRec.asked, hstx, hlive]
  obtain ⟨hyrole, hyst, hybm⟩ := hspec
  have hyl : y.1.state ≠ .listening := by rcases hyst with hs | hs <;> rw [hs] <;> exact fun h => nomatch h
  have hbegun : berthsBegun b y = y := by
    cases hb : y.1.bmove with
    | none => exact berthsBegun_of_none b hb
    | some n => exact berthsBegun_of_some b hb (hybm n hb)
  have hy : y = tailStepped s.cbl.guard a b (claimBegun (sinkBegun (r, s.listed h))) := by
    rw [claimBegun_of_moving hrst, tailStepped, cellsStepped_of_none _ (hrec.hw.2.1.trans hc), hk, hbegun,
      adopted_of_state _ hyl]
  obtain ⟨u, q, hu, hq, ho, hl⟩ := hrun y hy (PathRec.seeks_localEnable (PathRec.seeks_of_role (by simp [hyrole])))
  exact ⟨{ r with sk := k }, s.listed h, u, q, hrole, hrst, hrec.sink, hbm, hu, hq, ho, hl,
    by rcases hyst with hs | hs <;> exact fun hd => nomatch hs.symm.trans hd⟩

/-- The phases of a move of berths at a boundary. -/
theorem berthMoveSteps {s : State} {h : Nat} {p : PathRec} {m : BerthMove} (hT : s.TablesOk)
    (hset : s.settled h p) (hn : (s.ftm.frame + 1) % 16 = 0) (hst : p.state = .moving) (hr : p.role = .loc)
    (hc : p.hw.move = none) (hm : p.bmove = some m) :
    ∃ (u : State) (q : PathRec), exec .frameStart s = .next u ∧ u.path h = some q ∧
      (m.phase = .bridge → m.guard + 1 < s.cbl.guard →
        q.bmove = some { m with guard := m.guard + 1 } ∧ q.state = .moving ∧ q.sink = p.sink) ∧
      (m.phase = .bridge → s.cbl.guard ≤ m.guard + 1 →
        q.bmove = some { m with guard := m.guard + 1, phase := .retiring } ∧ q.state = .moving ∧
        q.sink = some (.carrier m.newC m.newB)) ∧
      (m.phase = .retiring → q.bmove = none ∧ q.state = .carrying ∧ q.sink = p.sink ∧
        q.lastCompletion = some .moveDone ∧ u.listed h = true) := by
  by_cases hph : m.phase = .pending
  · obtain ⟨u, q, hu, hq⟩ := State.path_frameStart hT hset.1
    exact ⟨u, q, hu, hq, fun h => by simp [hph] at h, fun h => by simp [hph] at h, fun h => by simp [hph] at h⟩
  obtain ⟨r, l, u, q, hrole, hrst, hsink, hbm, hu, hq, ho, hl, hdef⟩ := State.frameStart_berths hT hset hn hst hr hc hm hph
  have hqst := ho.state hdef
  refine ⟨u, q, hu, hq, fun hb hlt => ?_, fun hb hle => ?_, fun hb => ?_⟩
  · have hy : berthsStepped s.cbl.guard (r, l) = ({ r with bmove := some { m with guard := m.guard + 1 } }, l) := by
      simp only [berthsStepped, hbm, hb]
      exact if_neg (Nat.not_le.mpr hlt)
    rw [hy] at ho hqst
    exact ⟨ho.bmove, hqst.trans hrst, ho.sink.trans hsink⟩
  · have hy : berthsStepped s.cbl.guard (r, l) = ({ r with
        sink := some (.carrier m.newC m.newB), bmove := some { m with phase := .retiring, guard := m.guard + 1 } }, l) := by
      simp only [berthsStepped, hbm, hb]
      exact if_pos hle
    rw [hy] at ho hqst
    exact ⟨ho.bmove, hqst.trans hrst, ho.sink⟩
  · have hy : berthsStepped s.cbl.guard (r, l) =
        posting .moveDone (({ r with bmove := none }).asked .moving r.liveState, l) := by
      simp only [berthsStepped, hbm, hb]
    have hlive : r.liveState = .carrying := by rw [PathRec.liveState, hrole]; rfl
    rw [hy] at ho hqst hl
    refine ⟨ho.bmove.trans ?_, hqst.trans ?_, ho.sink.trans ?_, ho.last.trans ?_, hl⟩
    · simp [posting, PathRec.asked]
    · simp [posting, PathRec.asked, hrst, hlive]
    · simpa [posting, PathRec.asked] using hsink
    · simp [posting]

/-! ### Cells at the source (R152, R153) -/

/-- A SOURCE record that moves its cells, at a boundary: what its step makes of it is what the frame opens with. -/
theorem State.frameStart_cells {s : State} {h : Nat} {p : PathRec} {m : CellMove} (hT : s.TablesOk)
    (hset : s.settled h p) (hn : (s.ftm.frame + 1) % 16 = 0) (hst : p.state = .moving) (hr : p.role = .source)
    (hb : p.bmove = none) (hm : p.hw.move = some m) (hph : m.phase ≠ .seeking) (hph' : m.phase ≠ .claimed) :
    ∃ r l u q, r.state = .moving ∧ r.hw.cells = p.hw.cells ∧ r.hw.move = some m ∧ exec .frameStart s = .next u ∧
      u.path h = some q ∧ q.state = (cellsStepped s.cbl.guard (r, l)).1.state ∧
      q.hw.cells = (cellsStepped s.cbl.guard (r, l)).1.hw.cells ∧
      q.hw.move = (cellsStepped s.cbl.guard (r, l)).1.hw.move ∧
      q.hw.clean = (cellsStepped s.cbl.guard (r, l)).1.hw.clean ∧
      q.lastCompletion = (cellsStepped s.cbl.guard (r, l)).1.lastCompletion ∧
      u.listed h = (cellsStepped s.cbl.guard (r, l)).2 := by
  obtain ⟨r, a, b, hrec, _, _, hrun⟩ := State.frameStart_settled hT hset hn (by simp [hst])
    (fun h => by rw [PathRec.not_receives_of_role (by simp [hr])] at h; cases h)
  have hrst : r.state = .moving := hrec.state.trans hst
  have hrm : r.hw.move = some m := hrec.hw.2.1.trans hm
  have hrb : r.bmove = none := hrec.bmove.trans hb
  set x := cellsStepped s.cbl.guard (r, s.listed h) with hx
  have hspec : x.1.bmove = none ∧ (x.1.state = .carrying ∨
      x.1.state = .moving ∧ ∃ n, x.1.hw.move = some n ∧ n.phase ≠ .seeking) := by
    simp only [hx, cellsStepped, hrm]
    cases hphm : m.phase with
    | seeking => exact absurd hphm hph
    | claimed => exact absurd hphm hph'
    | accepted => exact ⟨hrb, .inr ⟨hrst, _, rfl, fun h => nomatch h⟩⟩
    | bridge =>
      refine ⟨hrb, .inr ⟨hrst, _, rfl, ?_⟩⟩
      dsimp only
      split <;> exact fun h => nomatch h
    | retiring => simp [posting, PathRec.asked, hrb, hrst]
  obtain ⟨hxb, hxst⟩ := hspec
  obtain ⟨k, hk⟩ := x.1.sinkStepped_eq s.cbl.guard
  let y : PathRec × Bool := ({ x.1 with sk := k }, x.2)
  have hyb : y.1.bmove = none := hxb
  have hyl : y.1.state ≠ .listening ∧ y.1.state ≠ .defined := by
    have hyst : y.1.state = x.1.state := rfl
    rw [hyst]
    rcases hxst with h | ⟨h, _⟩ <;> simp [h]
  have hy : y = tailStepped s.cbl.guard a b (claimBegun (sinkBegun (r, s.listed h))) := by
    rw [claimBegun_of_moving hrst, tailStepped, ← hx, hk, berthsStepped_of_none _ hyb, berthsBegun_of_none _ hyb,
      adopted_of_state _ hyl.1]
  have hseeks : y.1.seeks = false := by
    rcases hxst with h | ⟨h, n, hn, hp⟩
    · have hys : y.1.state = .carrying := h
      exact PathRec.seeks_of_state (by simp [hys]) (by simp [hys])
    · have hys : y.1.state = .moving := h
      exact PathRec.seeks_of_move (by simp [hys]) hn hp
  obtain ⟨u, q, hu, hq, ho, hl⟩ := hrun y hy (PathRec.seeks_localEnable hseeks)
  obtain ⟨hqc, hqm, _, hqcl, _, _⟩ := ho.hw
  exact ⟨r, s.listed h, u, q, hrst, hrec.hw.1, hrm, hu, hq, ho.state hyl.2, hqc, hqm, hqcl, ho.last, hl⟩

/-- The phases of a move of cells at a boundary. -/
theorem cellMoveSteps {s : State} {h : Nat} {p : PathRec} {m : CellMove} (hT : s.TablesOk)
    (hset : s.settled h p) (hn : (s.ftm.frame + 1) % 16 = 0) (hst : p.state = .moving) (hr : p.role = .source)
    (hb : p.bmove = none) (hm : p.hw.move = some m) :
    ∃ (u : State) (q : PathRec), exec .frameStart s = .next u ∧ u.path h = some q ∧
      (m.phase = .accepted → q.hw.move = some { m with phase := .bridge, guard := 0 } ∧ q.state = .moving ∧
        q.hw.cells = p.hw.cells) ∧
      (m.phase = .bridge → m.guard + 1 < s.cbl.guard →
        q.hw.move = some { m with guard := m.guard + 1 } ∧ q.state = .moving ∧ q.hw.cells = p.hw.cells) ∧
      (m.phase = .bridge → s.cbl.guard ≤ m.guard + 1 →
        q.hw.move = some { m with guard := m.guard + 1, phase := .retiring } ∧ q.state = .moving ∧
        q.hw.cells = p.hw.cells) ∧
      (m.phase = .retiring → q.hw.move = none ∧ q.state = .carrying ∧ q.hw.cells = m.new ∧ q.hw.clean = 0 ∧
        q.lastCompletion = some .moveDone ∧ u.listed h = true) := by
  by_cases hph : m.phase = .seeking ∨ m.phase = .claimed
  · obtain ⟨u, q, hu, hq⟩ := State.path_frameStart hT hset.1
    exact ⟨u, q, hu, hq, fun h => by simp [h] at hph, fun h => by simp [h] at hph, fun h => by simp [h] at hph,
      fun h => by simp [h] at hph⟩
  rw [not_or] at hph
  obtain ⟨r, l, u, q, hrst, hrc, hrm, hu, hq, hqst, hqc, hqm, hqcl, hlast, hl⟩ :=
    State.frameStart_cells hT hset hn hst hr hb hm hph.1 hph.2
  refine ⟨u, q, hu, hq, fun ha => ?_, fun ha hlt => ?_, fun ha hle => ?_, fun ha => ?_⟩
  · simp only [cellsStepped, hrm, ha] at hqst hqc hqm
    exact ⟨hqm, hqst.trans hrst, hqc.trans hrc⟩
  · have hg : ¬ s.cbl.guard ≤ m.guard + 1 := Nat.not_le.mpr hlt
    simp only [cellsStepped, hrm, ha, if_neg hg] at hqst hqc hqm
    exact ⟨by rw [hqm, ← ha], hqst.trans hrst, hqc.trans hrc⟩
  · simp only [cellsStepped, hrm, ha, if_pos hle] at hqst hqc hqm
    exact ⟨hqm, hqst.trans hrst, hqc.trans hrc⟩
  · simp only [cellsStepped, hrm, ha, posting, PathRec.asked, PathRec.posted_state, PathRec.posted_hw,
      PathRec.posted_last, if_pos hrst] at hqst hqc hqm hqcl hlast hl
    exact ⟨hqm, hqst, hqc, hqcl, hlast, hl⟩

/-! ### Cells at the sink (R154) -/

/-- The phases of a sink's cell move at a boundary. -/
theorem sinkMoveSteps {s : State} {h : Nat} {p : PathRec} {m : SinkMove} (hT : s.TablesOk)
    (hset : s.settled h p) (hn : (s.ftm.frame + 1) % 16 = 0) (hr : p.receives = true) (hb : p.bmove = none)
    (hc : p.hw.move = none) (hloss : p.sk.loss = 0) (hm : p.sk.move = some m) :
    ∃ (u : State) (q : PathRec), exec .frameStart s = .next u ∧ u.path h = some q ∧ q.state = p.state ∧
      (m.status = .sent → q.sk.move = some { m with status := .bridging, guard := 0 } ∧ q.sk.cells = p.sk.cells) ∧
      (m.status = .bridging → m.guard + 1 < s.cbl.guard →
        q.sk.move = some { m with guard := m.guard + 1 } ∧ q.sk.cells = p.sk.cells) ∧
      (m.status = .bridging → s.cbl.guard ≤ m.guard + 1 → q.sk.move = none ∧ q.sk.cells = some m.new ∧
        q.sk.copy = some m.new ∧ q.sk.missing = [] ∧ q.sk.check = 0 ∧ q.sk.loss = 0) := by
  obtain ⟨hrole, hpst⟩ := PathRec.receives_iff.mp hr
  obtain ⟨r, a, b, hrec, _, _, hrun⟩ := State.frameStart_settled hT hset hn (by rcases hpst with h | h <;> simp [h])
    (fun _ => hloss)
  have hrm : r.sk.move = some m := hrec.sk.2.2.trans hm
  obtain ⟨k, hk⟩ := r.sinkStepped_eq s.cbl.guard
  let y : PathRec × Bool := (r.sinkStepped s.cbl.guard, s.listed h)
  have hyst : y.1.state = p.state := by
    change (r.sinkStepped s.cbl.guard).state = _
    rw [hk]
    exact hrec.state
  have hyrole : y.1.role = .sink := by
    change (r.sinkStepped s.cbl.guard).role = _
    rw [hk]
    exact hrec.role.trans hrole
  have hyb : y.1.bmove = none := by
    change (r.sinkStepped s.cbl.guard).bmove = _
    rw [hk]
    exact hrec.bmove.trans hb
  have hrst (st : PState) (hs : st ≠ .receiving) (hs' : st ≠ .moving) : p.state ≠ st := by
    rcases hpst with h | h <;> rw [h]
    · exact Ne.symm hs
    · exact Ne.symm hs'
  have hy : y = tailStepped s.cbl.guard a b (claimBegun (sinkBegun (r, s.listed h))) := by
    rw [sinkBegun_of_state (by rw [hrec.state]; exact hrst _ (by simp) (by simp)),
      claimBegun_of_state (by rw [hrec.state]; exact hrst _ (by simp) (by simp)), tailStepped,
      cellsStepped_of_none _ (hrec.hw.2.1.trans hc)]
    change y = adopted a (berthsBegun b (berthsStepped _ y))
    rw [berthsStepped_of_none _ hyb, berthsBegun_of_none _ hyb,
      adopted_of_state _ (by rw [hyst]; exact hrst _ (by simp) (by simp))]
  obtain ⟨u, q, hu, hq, ho, hl⟩ := hrun y hy (PathRec.seeks_localEnable (PathRec.seeks_of_role (by simp [hyrole])))
  obtain ⟨hqc, _, hqmi, hql, _, hqm⟩ := ho.sk
  have hcopy := ho.copy
  rw [if_pos (PathRec.receives_of hyrole (by rw [hyst]; exact hpst))] at hcopy
  have hys : y.1.sk = (r.sinkStepped s.cbl.guard).sk := rfl
  rw [hys] at hqc hqmi hql hqm hcopy
  refine ⟨u, q, hu, hq, (ho.state (by rw [hyst]; exact hrst _ (by simp) (by simp))).trans hyst, fun ha => ?_,
    fun ha hlt => ?_, fun ha hle => ?_⟩
  · simp only [PathRec.sinkStepped, hrm, ha] at hqm hqc
    exact ⟨hqm, hqc.trans hrec.sk.1⟩
  · simp only [PathRec.sinkStepped, hrm, ha, if_neg (Nat.not_le.mpr hlt)] at hqm hqc
    exact ⟨by rw [hqm, ← ha], hqc.trans hrec.sk.1⟩
  · simp only [PathRec.sinkStepped, hrm, ha, if_pos hle, SnkHw.zeroed] at hqm hqc hcopy hqmi hql
    exact ⟨hqm, hqc, hcopy, hqmi, ho.check, hql⟩

/-- Settles O38. -/
theorem moveSwitches : Obligations.MoveSwitches := by
  refine ⟨fun s h p m hp hm hph hg _ hne hold hnew hold' hnew' =>
      berthMoveSwitches hp hm hph hg hne hold hnew hold' hnew',
    fun s h p m hp hm hph hg => exec_cellMoveSwitch hp hm hph hg,
    fun s h p m hp hm hph hg => exec_sinkCellMoveSwitch hp hm hph hg, fun s h p m hp hm hph hst => ⟨fun ho => ?_, fun ho hfit => ?_⟩,
    fun s h p hT hset hn hst => ⟨fun m hr hc hm => berthMoveSteps hT hset hn hst hr hc hm,
      fun m hr hb hm => cellMoveSteps hT hset hn hst hr hb hm⟩,
    fun s h p m hT hset hn hr hb hc hloss hm => sinkMoveSteps hT hset hn hr hb hc hloss hm⟩
  · have hpath : (s.setPath h { p with bmove := none, state := p.liveState }).path h =
        some { p with bmove := none, state := p.liveState } := State.path_setPath_self _ _ _
    rw [State.beginBerths_of_busy hp hm hph hst ho]
    refine ⟨_, State.path_post_self hpath _, ?_, ?_, ?_, State.post_cbl _ _ _, fun g hg => ?_⟩
    · rw [PathRec.posted_bmove]
    · rw [PathRec.posted_state]
    · rw [PathRec.posted_last]
    · rw [State.path_post_ne _ hg, State.path_setPath_ne _ _ hg]
  · rw [State.beginBerths_of_free hp hm hph ho]
    exact ⟨State.path_setPath_self _ _ _, fun i hi => s.owner_setOwner_inside hi,
      fun c b hb hout => s.owner_setOwner_outside hb hfit hout, fun g hg => State.path_setPath_ne _ _ hg⟩

end Sys2Proof.Machine

/-! ## Proofs: a record at rest, and the realignment -/

namespace Sys2Proof.Machine

/-! ### A record at rest at a boundary -/

@[simp] theorem PathRec.posted_tag (p : PathRec) (b : Bool) (c : Completion) : (p.posted b c).tag = p.tag := by
  unfold PathRec.posted; split <;> rfl

/-- A record that no step of a boundary takes to another state, but for a pending enable. -/
def PathRec.AtRest (p : PathRec) : Prop :=
  (p.state = .defined ∨ p.state = .waiting ∨ p.state = .listening) ∧ (p.state = .listening → p.sk.watch = none)

/-- What a step leaves of a record at rest: its highway fields where it moves no cells. -/
structure PathRec.Rested (p r : PathRec) : Prop where
  ident : r.tag = p.tag ∧ r.role = p.role ∧ r.state = p.state ∧ r.enablePending = p.enablePending
  move : p.hw.move = none → r.hw.move = none ∧ r.hw.cells = p.hw.cells ∧ r.hw.acceptHeard = p.hw.acceptHeard ∧
    r.hw.clean = p.hw.clean ∧ r.hw.attempt = p.hw.attempt ∧ r.hw.refusal = p.hw.refusal
  sk : p.sk.move = none → r.sk = p.sk
  watch : p.sk.watch = none → r.sk.watch = none

namespace PathRec.Rested

variable {p q r : PathRec}

theorem refl (p : PathRec) : p.Rested p :=
  ⟨⟨rfl, rfl, rfl, rfl⟩, fun h => ⟨h, rfl, rfl, rfl, rfl, rfl⟩, fun _ => rfl, id⟩

theorem trans (h : p.Rested q) (h' : q.Rested r) : p.Rested r := by
  obtain ⟨ht, hr, hs, he⟩ := h.ident
  obtain ⟨ht', hr', hs', he'⟩ := h'.ident
  refine ⟨⟨ht'.trans ht, hr'.trans hr, hs'.trans hs, he'.trans he⟩, fun hm => ?_, fun hm => ?_, h'.watch ∘ h.watch⟩
  · obtain ⟨hm1, h1, h2, h3, h4, h5⟩ := h.move hm
    obtain ⟨hm2, h1', h2', h3', h4', h5'⟩ := h'.move hm1
    exact ⟨hm2, h1'.trans h1, h2'.trans h2, h3'.trans h3, h4'.trans h4, h5'.trans h5⟩
  · have hk := h.sk hm
    exact (h'.sk (hk ▸ hm)).trans hk

theorem atRest (h : p.Rested r) (hp : p.AtRest) : r.AtRest := by
  obtain ⟨_, _, hs, _⟩ := h.ident
  exact ⟨hs ▸ hp.1, fun hl => h.watch (hp.2 (hs ▸ hl))⟩

/-- A change of a record's fields of berths, completion and squelch. -/
theorem of_same (hi : r.tag = p.tag ∧ r.role = p.role ∧ r.state = p.state ∧ r.enablePending = p.enablePending)
    (hh : r.hw = p.hw) (hk : r.sk = p.sk) : p.Rested r := by
  refine ⟨hi, fun hm => ?_, fun _ => hk, fun hw => hk ▸ hw⟩
  rw [hh]
  exact ⟨hm, rfl, rfl, rfl, rfl, rfl⟩

end PathRec.Rested

namespace PathRec.AtRest

variable {p : PathRec}

theorem state_ne (h : p.AtRest) {st : PState} (hd : st ≠ .defined) (hw : st ≠ .waiting) (hl : st ≠ .listening) :
    p.state ≠ st := by
  rcases h.1 with hs | hs | hs <;> rw [hs]
  · exact Ne.symm hd
  · exact Ne.symm hw
  · exact Ne.symm hl

theorem live_eq (h : p.AtRest) : p.live = false := by
  unfold PathRec.live isLive
  cases p.role <;> rcases h.1 with hs | hs | hs <;> rw [hs] <;> rfl

theorem receives_eq (h : p.AtRest) : p.receives = false := by rw [PathRec.receives, h.live_eq, Bool.and_false]

/-- No request of a boundary's step finds a record at rest. -/
theorem asked_eq (h : p.AtRest) {a : PState} (hd : a ≠ .defined) (hw : a ≠ .waiting) (hl : a ≠ .listening) (b : PState) :
    p.asked a b = p := by
  unfold PathRec.asked
  rw [if_neg (h.state_ne hd hw hl)]

end PathRec.AtRest

theorem rested_posting (c : Completion) (p : PathRec) (l : Bool) : p.Rested (posting c (p, l)).1 :=
  .of_same (by simp [posting]) (by simp [posting]) (by simp [posting])

theorem PathRec.rested_undone (p : PathRec) : p.Rested p.undone := .of_same ⟨rfl, rfl, rfl, rfl⟩ rfl rfl

theorem PathRec.rested_backedOff {p : PathRec} (h : p.AtRest) : p.Rested p.backedOff := by
  obtain ⟨b, hb⟩ := PathRec.backedOff_eq (h.state_ne (by simp) (by simp) (by simp) : p.state ≠ .collided)
  rw [hb]
  exact ⟨⟨rfl, rfl, rfl, rfl⟩, fun hm => ⟨hm, rfl, rfl, rfl, rfl, rfl⟩, fun _ => rfl, id⟩

theorem PathRec.cleanBoundary_atRest {p : PathRec} (h : p.AtRest) : p.cleanBoundary = p :=
  if_neg fun hc => by simp [h.live_eq] at hc

theorem PathRec.lossCounted_atRest {p : PathRec} (h : p.AtRest) : p.lossCounted = p :=
  if_neg (by simp [h.receives_eq])

theorem rested_headStepped {x : PathRec × Bool} (h : x.1.AtRest) :
    x.1.Rested (headStepped x).1 ∧ x.1.counting.lossEnds = false := by
  have hundone := x.1.rested_undone
  have hback := hundone.trans (PathRec.rested_backedOff (hundone.atRest h))
  have hrest := hback.atRest h
  have hcount : x.1.counting = x.1.undone.backedOff := PathRec.cleanBoundary_atRest hrest
  unfold headStepped
  rw [hcount, PathRec.lossCounted_atRest hrest, sinkBegun_of_state, claimBegun_of_state]
  · exact ⟨hback, by simp [PathRec.lossEnds, hrest.receives_eq]⟩
  · exact hrest.state_ne (by simp) (by simp) (by simp)
  · exact hrest.state_ne (by simp) (by simp) (by simp)

theorem rested_cellsStepped {x : PathRec × Bool} (h : x.1.AtRest) (g : Nat) : x.1.Rested (cellsStepped g x).1 := by
  unfold cellsStepped
  cases hm : x.1.hw.move with
  | none => exact .refl _
  | some m =>
    have hsome {P : Prop} (hn : x.1.hw.move = none) : P := by simp [hm] at hn
    have hmod (w : SrcHw) : x.1.Rested { x.1 with hw := w } := ⟨⟨rfl, rfl, rfl, rfl⟩, hsome, fun _ => rfl, id⟩
    dsimp only
    cases m.phase with
    | seeking => exact .refl _
    | claimed => exact .refl _
    | accepted => exact hmod _
    | bridge => exact hmod _
    | retiring =>
      dsimp only
      rw [PathRec.AtRest.asked_eq ((hmod _).atRest h) (by simp) (by simp) (by simp)]
      exact (hmod _).trans (rested_posting _ _ _)

theorem PathRec.rested_sinkStepped (g : Nat) (p : PathRec) : p.Rested (p.sinkStepped g) := by
  unfold PathRec.sinkStepped
  cases hm : p.sk.move with
  | none => exact .refl _
  | some m =>
    have hsome {P : Prop} (hn : p.sk.move = none) : P := by simp [hm] at hn
    have hmod (k : SnkHw) (hk : k.watch = p.sk.watch) : p.Rested { p with sk := k } :=
      ⟨⟨rfl, rfl, rfl, rfl⟩, fun hm => ⟨hm, rfl, rfl, rfl, rfl, rfl⟩, hsome, fun hw => hk.trans hw⟩
    dsimp only
    cases m.status with
    | queued => exact .refl _
    | sent => exact hmod _ rfl
    | bridging =>
      dsimp only
      split
      · exact hmod _ rfl
      · exact hmod _ rfl

theorem rested_berthsStepped {x : PathRec × Bool} (h : x.1.AtRest) (g : Nat) : x.1.Rested (berthsStepped g x).1 := by
  have hmod (e : Option Endpoint) (m : Option BerthMove) : x.1.Rested { x.1 with sink := e, bmove := m } :=
    .of_same ⟨rfl, rfl, rfl, rfl⟩ rfl rfl
  unfold berthsStepped
  cases x.1.bmove with
  | none => exact .refl _
  | some m =>
    dsimp only
    cases m.phase with
    | pending => exact .refl _
    | bridge =>
      dsimp only
      split
      · exact hmod _ _
      · exact hmod _ _
    | retiring =>
      dsimp only
      rw [PathRec.AtRest.asked_eq ((hmod _ _).atRest h) (by simp) (by simp) (by simp)]
      exact (hmod _ _).trans (rested_posting _ _ _)

theorem rested_berthsBegun {x : PathRec × Bool} (h : x.1.AtRest) (b : Bool) : x.1.Rested (berthsBegun b x).1 := by
  have hmod (m : Option BerthMove) : x.1.Rested { x.1 with bmove := m } := .of_same ⟨rfl, rfl, rfl, rfl⟩ rfl rfl
  unfold berthsBegun
  cases x.1.bmove with
  | none => exact .refl _
  | some m =>
    dsimp only
    split
    · split
      · rw [PathRec.AtRest.asked_eq ((hmod _).atRest h) (by simp) (by simp) (by simp)]
        exact (hmod _).trans (rested_posting _ _ _)
      · exact hmod _
    · exact .refl _

theorem adopted_atRest {x : PathRec × Bool} (h : x.1.AtRest) (a : Bool) : adopted a x = x := by
  by_cases hl : x.1.state = .listening
  · simp only [adopted, h.2 hl]
  · exact adopted_of_state a hl

/-- The steps of a boundary after the monitors leave a record at rest. -/
theorem rested_tailStepped {x : PathRec × Bool} (h : x.1.AtRest) (g : Nat) (a b : Bool) :
    x.1.Rested (tailStepped g a b x).1 := by
  have hcells := rested_cellsStepped h g
  have hsink := hcells.trans (PathRec.rested_sinkStepped g _)
  have hberths := hsink.trans (rested_berthsStepped (x := ((cellsStepped g x).1.sinkStepped g, (cellsStepped g x).2))
    (hsink.atRest h) g)
  have hbegun := hberths.trans (rested_berthsBegun (hberths.atRest h) b)
  unfold tailStepped
  rw [adopted_atRest (hbegun.atRest h)]
  exact hbegun

/-! ### A silent station (R102, R144) -/

/-- While the station is silent, a rework brings no record onto the highway. -/
theorem State.Reworks.muteOk {H : Nat → Prop} {s t : State} (h : State.Reworks H s t) (hm : s.MuteOk) : t.MuteOk := by
  induction h with
  | refl => exact hm
  | trans _ _ ih ih' => exact ih' (ih hm)
  | @setPath s h p q _ hp hk =>
    intro hs g r hr
    by_cases hg : g = h
    · subst hg
      rw [State.path_setPath_self, Option.some.injEq] at hr
      exact hr ▸ hk.off hs (hm hs g p hp)
    · exact hm hs g r ((State.path_setPath_ne _ _ hg) ▸ hr)
  | @mapPaths s f _ hf =>
    intro hs g r hr
    rw [State.path_mapPaths] at hr
    obtain ⟨p, hp, rfl⟩ := Option.map_eq_some_iff.mp hr
    exact (hf g p hp).off hs (hm hs g p hp)
  | @post h s c _ =>
    intro hs g r hr
    have hs' : s.silent = true := by rw [← hs]; exact (State.silent_congr (by rw [State.post_hwy])).symm
    by_cases hg : g = h
    · subst hg
      cases hp : s.path g with
      | none =>
        rw [State.post, hp] at hr
        simp [hp] at hr
      | some p =>
        rw [State.path_post_self hp, Option.some.injEq] at hr
        rw [← hr, PathRec.offHighway_congr (PathRec.posted_role ..) (PathRec.posted_state ..)]
        exact hm hs' g p hp
    · exact hm hs' g r ((s.path_post_ne hg c) ▸ hr)
  | @setHwy s x hk =>
    intro hs
    rw [State.silent_congr (s := s) hk.fixed.1] at hs
    exact hm hs
  | setOwners _ => exact hm

/-- After a MUTE request that a WARMING or JOINED station has taken, no record takes part on the highway. -/
theorem State.mute_muteOk {s : State} (hs : s.silent = false) : s.mute.MuteOk := by
  intro _ h q hq
  have hsome : (s.path h).isSome := by
    have := s.mute_reworks.isSome_path h
    rw [← State.mute_of_awake hs, hq] at this
    exact this.symm
  obtain ⟨p, hp⟩ := Option.isSome_iff_exists.mp hsome
  obtain ⟨r, hr, hmuted⟩ := State.path_mute hs hp
  rw [hq, Option.some.injEq] at hr
  exact hr ▸ PathRec.offHighway_of_muted hmuted

theorem State.SameSteady.muteOk {s t : State} (h : s.SameSteady t) (hm : s.MuteOk) : t.MuteOk := by
  intro hs g q hq
  rw [State.silent_congr h.station.1] at hs
  have hrec := h.records g
  rw [hq] at hrec
  obtain ⟨p, hp, hpq⟩ := Option.map_eq_some_iff.mp hrec.symm
  obtain ⟨_, hrole, _, hstate, _⟩ := PathRec.fields_of_steady hpq.symm
  rw [PathRec.offHighway_congr hrole hstate]
  exact hm hs g p hp

theorem State.ended_muteOk {s : State} (hm : s.MuteOk) (t num : Nat) : (s.ended t num).MuteOk :=
  State.Reworks.ageQueue.muteOk (s := s.endFrame.setFtm (s.endFrame.ftm.started t num))
    (show s.endFrame.MuteOk from (State.Reworks.endRecords s).muteOk hm)

/-- A MUTE station whose timing is not restored stays MUTE and silent through a boundary. -/
theorem State.startFrame_muteOk {s : State} (hm : s.MuteOk) (hst : s.hwy.station = .mute)
    (hr : s.ftm.restores = false) (t : Nat) : (s.startFrame t 0).MuteOk := by
  have hended := State.ended_muteOk hm t 0
  obtain ⟨_, hftm, hstation, _⟩ := s.ended_fixed t 0
  set v := s.ended t 0 with hv
  obtain ⟨_, hc, _, hptb⟩ := v.counted_cases
  have hdue : v.ftm.restores = false := by rw [hftm]; exact hr
  have hcs : v.counted.hwy.station = .mute :=
    ((hc.silent hdue (by rw [hstation, hst]; exact fun h => nomatch h)).1.trans hstation).trans hst
  have hvs : v.silent = true := by
    unfold State.silent
    rw [hstation, hst]
    rfl
  have hcounted : v.counted.MuteOk := by
    intro _ g q hq
    rw [State.path_congr hptb, State.path_mapPaths] at hq
    obtain ⟨p, hp, rfl⟩ := Option.map_eq_some_iff.mp hq
    obtain ⟨sq, hsq⟩ := p.squelchBoundary_eq v.cbl.holdoff
    rw [hsq]
    exact hended hvs g p hp
  rw [State.startFrame_eq, if_pos rfl]
  exact (v.boundary.beginFrame_sameSteady _).muteOk (v.boundary_reworks.muteOk hcounted)

end Sys2Proof.Machine

/-! ## Proofs: the multiframe marker -/

namespace Sys2Proof.Machine

/-! ### A record at rest through a boundary at which the station is MUTE -/

/-- A record at rest, at a boundary of a MUTE station that stays so. -/
theorem State.startFrame_atRest {s : State} {h : Nat} {p : PathRec} (hs : Sparse.rising s.ptb.paths = true)
    (hp : s.path h = some p) (hrest : p.AtRest) (hst : s.hwy.station = .mute) (hdue : s.ftm.restores = false)
    (hq : s.hwy.sendQ = []) (hm : ∀ m ∈ s.hwy.mons, m.isFor h = false) (t : Nat) :
    ∃ (e r q : PathRec), (s.startFrame t 0).path h = some q ∧ q.tag = p.tag ∧ q.role = p.role ∧ r.Opens q ∧ e.Rested r ∧
      e.AtRest ∧ e.state = p.state ∧ e.hw = p.hw ∧ e.sk.cells = p.sk.cells ∧ e.sk.status = p.sk.status ∧
      e.sk.move = p.sk.move ∧ e.sk.missing = p.sk.missing ∧ e.sk.loss = p.sk.loss ∧ e.sk.watch = none := by
  have hmay : s.mayCreate = false := by
    unfold State.mayCreate
    rw [hst]
    rfl
  obtain ⟨m, a, b, c, w, q, hcounted, hrise, hunbound, hmissing, hnone, _⟩ :=
    State.shown_counted hs hp (fun q' hmem => by simp [hq] at hmem) t
  obtain ⟨_, hftm, hstation, _⟩ := s.ended_fixed t 0
  set v := s.ended t 0 with hv
  obtain ⟨_, hcs, _⟩ := v.counted_cases
  have hvdue : v.ftm.restores = false := by rw [hftm]; exact hdue
  have hcst : v.counted.hwy.station = .mute :=
    ((hcs.silent hvdue (by rw [hstation, hst]; exact fun h => nomatch h)).1.trans hstation).trans hst
  set e := p.ended m a b c w q with he
  have hw : e.sk.watch = none := hnone hmay
  have herest : e.AtRest := ⟨hrest.1, fun _ => hw⟩
  obtain ⟨hhead, hends⟩ := rested_headStepped (x := (e, s.listed h)) herest
  obtain ⟨busy, hmeets⟩ := State.Meets.stepRecords hrise hcounted (hunbound hm) hends
  have hrested := hhead.trans (rested_tailStepped (hhead.atRest herest) v.counted.cbl.guard v.counted.mayCreate busy)
  obtain ⟨hbp, _⟩ := State.path_of_shown (hmeets.boundary fun hj => by rw [hcst] at hj; cases hj)
  obtain ⟨r, hr, hsteady, _, hcopy⟩ := State.path_beginFrame hbp s.ftm.frame
  obtain ⟨htag, hrole, _⟩ := PathRec.fields_of_steady hsteady
  set y := boundaryStepped v.counted.cbl.guard v.counted.mayCreate busy (e, s.listed h) with hy
  obtain ⟨en, st, hen, _⟩ := y.1.localEnable_eq
  have hident : y.1.localEnable.restartMultiframe.tag = y.1.tag ∧ y.1.localEnable.restartMultiframe.role = y.1.role := by
    rw [hen]
    exact ⟨rfl, rfl⟩
  obtain ⟨htag', hrole', _⟩ := hrested.ident
  refine ⟨e, y.1, r, ?_, htag.trans (hident.1.trans htag'), hrole.trans (hident.2.trans hrole'),
    PathRec.opens_of_steady hsteady hcopy, hrested, herest, rfl, rfl, rfl, rfl, rfl, hmissing hrest.receives_eq, rfl, hw⟩
  rw [State.startFrame_eq, if_pos rfl]
  exact hr

/-- A record that took part on the highway is at rest once MUTE has reached it. -/
theorem PathRec.atRest_of_muted {p q : PathRec} (h : p.muted q) (ho : p.offHighway = false) : q.AtRest := by
  rcases p.role_cases with hr | hr | hr
  · rw [PathRec.offHighway_of_loc hr] at ho
    cases ho
  · obtain ⟨_, _, hmatch⟩ := (PathRec.muted_source hr).mp h
    rw [if_neg (by simp [ho])] at hmatch
    exact ⟨.inr (.inl hmatch.1), fun hl => by simp [hmatch.1] at hl⟩
  · obtain ⟨_, _, hmatch⟩ := (PathRec.muted_sink hr).mp h
    rw [if_neg (by simp [ho])] at hmatch
    exact ⟨.inr (.inr hmatch.1), fun _ => by rw [hmatch.2]; rfl⟩

/-- What MUTE and the boundary after it leave of a record that took part on the highway (R8, R144). -/
theorem State.mutedAtBoundary_startFrame {s : State} {h : Nat} {p q : PathRec} (hs : Sparse.rising s.ptb.paths = true)
    (hq : s.path h = some q) (hpq : p.muted q) (ho : p.offHighway = false) (hst : s.hwy.station = .mute)
    (hdue : s.ftm.restores = false) (hsend : s.hwy.sendQ = []) (hm : ∀ m ∈ s.hwy.mons, m.isFor h = false) (t : Nat) :
    ∃ r, (s.startFrame t 0).path h = some r ∧ p.mutedAtBoundary r := by
  obtain ⟨e, y, r, hr, htag, hrole, hopens, hrested, herest, hestate, hehw, hcells, hstatus, hmove, hmissing, hloss, hwatch⟩ :=
    State.startFrame_atRest hs hq (PathRec.atRest_of_muted hpq ho) hst hdue hsend hm t
  have hystate : y.state = q.state := hrested.ident.2.2.1.trans hestate
  refine ⟨r, hr, htag.trans hpq.1, hrole.trans hpq.2.1, ?_⟩
  rcases p.role_cases with hpr | hpr | hpr
  · rw [hpr]
    trivial
  · obtain ⟨_, _, hmatch⟩ := (PathRec.muted_source hpr).mp hpq
    rw [if_neg (by simp [ho])] at hmatch
    obtain ⟨hqs, hqhw⟩ := hmatch
    have hehw' : e.hw = p.hw.muted := hehw.trans hqhw
    obtain ⟨hm1, h1, h2, h3, h4, h5⟩ := hrested.move (by rw [hehw']; rfl)
    obtain ⟨o1, o2, o3, o4, o5, o6⟩ := hopens.hw
    rw [hehw'] at h1 h2 h3 h4 h5
    rw [hpr]
    exact ⟨(hopens.state (by rw [hystate, hqs]; exact fun h => nomatch h)).trans (hystate.trans hqs), o1.trans h1,
      o2.trans hm1, o3.trans h2, o4.trans h3, o5.trans h4, o6.trans h5⟩
  · obtain ⟨_, _, hmatch⟩ := (PathRec.muted_sink hpr).mp hpq
    rw [if_neg (by simp [ho])] at hmatch
    obtain ⟨hqs, hqsk⟩ := hmatch
    rw [hqsk] at hcells hstatus hmove hmissing hloss
    have hsk : y.sk = e.sk := hrested.sk hmove
    obtain ⟨o1, o2, o3, o4, o5, o6⟩ := hopens.sk
    rw [hsk] at o1 o2 o3 o4 o5 o6
    rw [hpr]
    exact ⟨(hopens.state (by rw [hystate, hqs]; exact fun h => nomatch h)).trans (hystate.trans hqs), o1.trans hcells,
      o2.trans hstatus, o6.trans hmove, o3.trans hmissing, o4.trans hloss, hopens.check, o5.trans hwatch⟩

/-! ### The realignment (R8) -/

/-- The timer at a pulse in TRACKING, before its marker is examined. -/
def Ftm.pulsed (f : Ftm) (t : Nat) : Ftm := { f.measure t with miss := 0 }

/-- The timer of a realignment, before its frame start. -/
def Ftm.realigned (f : Ftm) : Ftm :=
  { f with mismatch := 0, realignPending := false, realigns := min 65535 (f.realigns + 1), restoreDue := false }

/-- The state of a realignment at its MUTE request: the indication still owed by an earlier one is given. -/
def State.realigning (s : State) : State :=
  if s.ftm.restoreDue then (s.setFtm s.ftm.realigned).timingRestored else s.setFtm s.ftm.realigned

theorem State.realign_eq (s : State) (t : Nat) : s.realign t =
    (s.realigning.mute.startFrame t 0).setFtm { (s.realigning.mute.startFrame t 0).ftm with restoreDue := true } := by
  unfold State.realign State.realigning Ftm.realigned
  rw [← satInc_eq_min]

/-- At its MUTE request a realignment has changed the timer and the station's doubt alone. -/
theorem State.realigning_spec (s : State) : s.realigning.ftm = s.ftm.realigned ∧ s.realigning.ptb = s.ptb ∧
    s.realigning.cmd = s.cmd ∧ (s.silent = false → s.realigning.silent = false) ∧
    (s.hwy.station = .unstarted → s.realigning.hwy.station = .unstarted) ∧
    (s.hwy.station = .mute → s.ftm.restoreDue = true → s.realigning.hwy.station = .warming ∧ s.realigning.hwy.warm = 0) ∧
    (s.hwy.station = .mute → s.ftm.restoreDue = false → s.realigning.hwy.station = .mute) := by
  unfold State.realigning
  cases hd : s.ftm.restoreDue with
  | false => exact ⟨rfl, rfl, rfl, id, id, fun _ h => by simp at h, fun h _ => h⟩
  | true =>
    obtain ⟨x, hx, _, _, _, _, _, hmute, hother⟩ := (s.setFtm s.ftm.realigned).timingRestored_hwy
    rw [if_pos rfl, hx]
    have hkeep (h : s.hwy.station ≠ .mute) : x.station = s.hwy.station := (hother h).1
    refine ⟨rfl, rfl, rfl, fun hs => ?_, fun h => ?_, fun h _ => hmute h, fun _ h => nomatch h⟩
    · have hne : s.hwy.station ≠ .mute := fun h => by simp [State.silent, h] at hs
      exact (State.silent_congr (s := s) (hkeep hne)).trans hs
    · exact (hkeep (by simp [h])).trans h

theorem State.muteOk_setFtm {s : State} (f : Ftm) (h : s.MuteOk) : (s.setFtm f).MuteOk := h

theorem State.mute_warm (s : State) : s.mute.hwy.warm = s.hwy.warm := by
  cases hs : s.silent with
  | true => rw [State.mute_of_silent hs]; rfl
  | false =>
    rw [State.mute_of_awake hs]
    exact s.mute_reworks.sameBlocks.hwy.2.2.1

/-- A MUTE request leaves a MUTE or an UNSTARTED station. -/
theorem State.mute_station (s : State) : s.mute.hwy.station = if s.hwy.station = .unstarted then .unstarted else .mute := by
  obtain ⟨⟨_, _, _, _, _, _, _, _, hsilent, hawake⟩, _⟩ := s.mute_taken
  cases hs : s.silent with
  | true =>
    rw [(hsilent hs).1]
    have : s.hwy.station = .unstarted ∨ s.hwy.station = .mute := by simpa [State.silent] using hs
    rcases this with h | h <;> simp [h]
  | false =>
    rw [(hawake hs).1, if_neg fun h => by simp [State.silent, h] at hs]

/-- A realignment: the timer, the station, and the records that took part on the highway. -/
theorem State.realign_spec (s : State) (t : Nat) :
    (s.realign t).ftm = { (s.ftm.realigned.started t 0).atBoundary s.cmd.started with restoreDue := true } ∧
    (s.realign t).hwy.doubt = true ∧
    (s.silent = false → (s.realign t).hwy.station = .mute ∧ (s.realign t).MuteOk) ∧
    (s.silent = true → (s.realign t).hwy.station = s.hwy.station) ∧
    (s.hwy.station = .mute → s.ftm.restoreDue = true → (s.realign t).hwy.warm = 0) ∧
    (s.TablesOk → s.silent = false → ∀ h p, s.path h = some p → p.offHighway = false →
      ∃ q, (s.realign t).path h = some q ∧ p.mutedAtBoundary q) := by
  obtain ⟨hftm, hptb, hcmd, hawake, hun, hdueMute, hmute⟩ := s.realigning_spec
  set b := s.realigning with hb
  obtain ⟨⟨hdoubt, _, _, _, _, _, hccmd, _, _, hcawake⟩, hcftm⟩ := b.mute_taken
  have hcst := b.mute_station
  set c := b.mute with hc
  obtain ⟨_, hftm'⟩ := c.startFrame_fixed t 0
  have hdue : c.ftm.restores = false := by rw [hcftm, hftm]; rfl
  obtain ⟨_, hkeepDoubt, hkeep, _⟩ := c.startFrame_station_boundary t
  have hne : c.hwy.station ≠ .warming := by
    rw [hcst]
    split <;> exact fun h => nomatch h
  obtain ⟨hst, hwarm⟩ := hkeep hdue hne
  have hcmute (hs : s.silent = false) : c.hwy.station = .mute := (hcawake (hawake hs)).1
  rw [State.realign_eq, ← hb, ← hc]
  refine ⟨?_, (hkeepDoubt hdue).trans hdoubt, fun hs => ⟨hst.trans (hcmute hs), ?_⟩, fun hs => hst.trans ?_,
    fun hs hr => hwarm.trans ((b.mute_warm).trans (hdueMute hs hr).2), fun hT hs h p hp ho => ?_⟩
  · rw [State.setFtm_ftm, hftm', if_pos rfl, hcftm, hftm, hccmd, hcmd]
  · exact State.muteOk_setFtm _ (State.startFrame_muteOk (State.mute_muteOk (hawake hs)) (hcmute hs) hdue t)
  · have hcase : s.hwy.station = .unstarted ∨ s.hwy.station = .mute := by simpa [State.silent] using hs
    rw [hcst]
    rcases hcase with h | h
    · rw [if_pos (hun h), h]
    · rw [if_neg, h]
      cases hd : s.ftm.restoreDue with
      | false => simp [hmute h hd]
      | true => simp [(hdueMute h hd).1]
  · have hbp : b.path h = some p := (State.path_congr hptb h).trans hp
    obtain ⟨q, hq, hpq⟩ := State.path_mute (hawake hs) hbp
    have hbrise : Sparse.rising b.cut.ptb.paths = true := by
      change Sparse.rising b.ptb.paths = true
      rw [hptb]
      exact hT.1
    have hcrise : Sparse.rising c.ptb.paths = true := by
      rw [hc, State.mute_of_awake (hawake hs)]
      exact (b.mute_reworks.handles_eq hbrise).2
    obtain ⟨hcmuted, hsend, hmons, _⟩ := hcawake (hawake hs)
    rw [State.path_setFtm]
    exact State.mutedAtBoundary_startFrame hcrise hq hpq ho hcmuted hdue hsend
      (by rw [hmons]; intro m hmem; simp at hmem; rw [hmem]; rfl) t

/-! ### The marker (R7, R8) -/

theorem State.trackingPulse_marker (s : State) (t : Nat) : s.trackingPulse t true =
    if s.ftm.realignPending = true ∧ s.nextFrame ≠ 0 then (s.setFtm (s.ftm.pulsed t)).realign t
    else ((s.setFtm (s.ftm.pulsed t)).setFtm ((s.ftm.pulsed t).examine s.nextFrame)).startFrame t s.nextFrame := by
  have hnext : (s.setFtm (s.ftm.pulsed t)).nextFrame = s.nextFrame := rfl
  have hcond : (true && s.ftm.realignPending && s.nextFrame != 0) = true ↔
      s.ftm.realignPending = true ∧ s.nextFrame ≠ 0 := by simp
  by_cases h : s.ftm.realignPending = true ∧ s.nextFrame ≠ 0
  · rw [if_pos h]
    exact if_pos (hcond.mpr h)
  · rw [if_neg h]
    exact if_neg fun hc => h (hcond.mp hc)

/-- Settles O8. -/
theorem markerExaminedAndRealigned : Obligations.MarkerExaminedAndRealigned := by
  intro s t hs hw
  have hexec : exec (.inWindowPulse t true) s = .next (s.trackingPulse t true) := by
    refine (if_pos hw).trans (congrArg Host.Outcome.next ?_)
    simp only [hs]
  have hnext : s.nextFrame = 0 ↔ s.ftm.frame % 16 = 15 := by
    unfold State.nextFrame
    omega
  refine ⟨_, hexec, ?_⟩
  rw [State.trackingPulse_marker]
  by_cases hr : s.ftm.realignPending = true ∧ s.nextFrame ≠ 0
  · obtain ⟨hftm, hdoubt, hawake, hsilent, hwarm, hrecords⟩ := (s.setFtm (s.ftm.pulsed t)).realign_spec t
    rw [if_pos hr, hftm]
    exact ⟨hs, rfl, rfl, fun h => absurd (hnext.mpr h) hr.2, fun _ h => by simp [hr.1] at h,
      fun _ _ => ⟨rfl, rfl, rfl, rfl, rfl, hdoubt, hawake, hsilent, hwarm, hrecords, fun hst => if_pos hst⟩⟩
  · rw [if_neg hr]
    set v := (s.setFtm (s.ftm.pulsed t)).setFtm ((s.ftm.pulsed t).examine s.nextFrame) with hv
    obtain ⟨_, hftm⟩ := v.startFrame_fixed t s.nextFrame
    by_cases hn : s.nextFrame = 0
    · have hexamine : (s.ftm.pulsed t).examine 0 = { s.ftm.pulsed t with mismatch := 0, realignPending := false } :=
        if_pos rfl
      obtain ⟨hrestored, _⟩ := v.startFrame_station_boundary t
      have hdue : s.ftm.restoreDue = true → v.ftm.restores = true := by
        intro hd
        rw [hv, State.setFtm_ftm, hn, hexamine]
        simp [Ftm.restores, Ftm.pulsed, Ftm.measure, hd, hs]
      rw [hn] at hftm ⊢
      have hvf : v.ftm = { s.ftm.pulsed t with mismatch := 0, realignPending := false } := by rw [hv, State.setFtm_ftm, hn, hexamine]
      rw [if_pos rfl, hvf] at hftm
      rw [hftm]
      refine ⟨hs, rfl, rfl, fun _ => ⟨rfl, rfl, rfl, rfl, fun hd => ⟨?_, hrestored (hdue hd)⟩⟩,
        fun h => absurd (hnext.mp hn) h, fun h => absurd (hnext.mp hn) h⟩
      simp [Ftm.atBoundary, Ftm.started, Ftm.pulsed, Ftm.measure, hs]
    · have hexamine : (s.ftm.pulsed t).examine s.nextFrame = { s.ftm.pulsed t with
          mismatch := min 2 (s.ftm.mismatch + 1), realignPending := decide (2 ≤ s.ftm.mismatch + 1) } := by
        rw [← satInc_eq_min]
        exact if_neg hn
      have hvf : v.ftm = { s.ftm.pulsed t with
          mismatch := min 2 (s.ftm.mismatch + 1), realignPending := decide (2 ≤ s.ftm.mismatch + 1) } := hexamine
      rw [if_neg hn, hvf] at hftm
      rw [hftm]
      exact ⟨hs, rfl, rfl, fun h => absurd (hnext.mpr h) hn, fun _ _ => ⟨rfl, rfl, rfl, rfl⟩,
        fun _ h => absurd ⟨h, hn⟩ hr⟩

end Sys2Proof.Machine

/-! ## Proofs: what a frame start does to the timer, the enables and the runs driven -/

namespace Sys2Proof.Machine

/-! ### A pending enable (R50) -/

/-- A LOCAL record whose enable is pending. -/
def PathRec.Awaits (p : PathRec) : Prop := p.role = .loc ∧ p.state = .defined ∧ p.enablePending = true

theorem PathRec.Awaits.atRest {p : PathRec} (h : p.Awaits) : p.AtRest :=
  ⟨.inl h.2.1, fun hl => nomatch h.2.1.symm.trans hl⟩

theorem PathRec.Awaits.of_rested {p r : PathRec} (h : p.Awaits) (hr : p.Rested r) : r.Awaits := by
  obtain ⟨_, hrole, hstate, hen⟩ := hr.ident
  exact ⟨hrole.trans h.1, hstate.trans h.2.1, hen.trans h.2.2⟩

theorem PathRec.Awaits.posted {p : PathRec} (h : p.Awaits) (l : Bool) (c : Completion) : (p.posted l c).Awaits := by
  unfold PathRec.Awaits
  rw [PathRec.posted_role, PathRec.posted_state, PathRec.posted_enable]
  exact h

/-- A claim's expiry changes no record that waits for its enable but in its highway and completion fields. -/
theorem State.expireClaim_awaits {s : State} {b : Bound} {p : PathRec} {l : Bool} (hx : s.shown b.handle = some (p, l))
    (hp : p.Awaits) : ∃ y, (s.expireClaim b).shown b.handle = some y ∧ y.1.Awaits := by
  have hpath : (s.idleMonitors b.handle).path b.handle = some p := (State.path_of_shown hx).1
  simp only [State.expireClaim, hpath]
  set v := ((s.idleMonitors b.handle).sendRelease p b.first .withdrawn).freeRun b.first b.k with hv
  have hshown : v.shown b.handle = some (p, l) := (State.shown_of_ptb (by simp [hv]) _).trans hx
  have hrest (w : SrcHw) : ({ p with hw := w } : PathRec).Awaits := hp
  have hasked (w : SrcHw) (a c : PState) (ha : a ≠ .defined) : (({ p with hw := w } : PathRec).asked a c).Awaits := by
    unfold PathRec.asked
    rw [if_neg (show ¬ p.state = a from fun h => ha (h.symm.trans hp.2.1))]
    exact hrest w
  split
  · have hreq := State.shown_request (State.shown_modHw hshown fun w => { w with move := none }) .moving .carrying
    have hmod := State.shown_modHw (State.shown_post hreq (.moveFailed .expired)) fun w => { w with clean := 0 }
    exact ⟨_, hmod, (hasked _ _ _ (by simp)).posted _ _⟩
  · have hreq := State.shown_request (State.shown_modHw hshown fun w =>
      { w with cells := none, backoff := if v.hwy.block then w.backoff else some (v.self + 1) }) .claiming
      (if v.hwy.block then .blocked else .waiting)
    exact ⟨_, State.shown_post hreq .claimExpired, (hasked _ _ _ (by simp)).posted _ _⟩

theorem State.monitorStep_awaits {s : State} {h : Nat} {x : PathRec × Bool} (hx : s.shown h = some x)
    (hp : x.1.Awaits) : ∃ y, (State.monitorStep h s).shown h = some y ∧ y.1.Awaits := by
  unfold State.monitorStep
  split
  · rename_i b n hmon
    have hfor := List.find?_some hmon
    have hb : b.handle = h := by simpa [Monitor.isFor, Monitor.info] using hfor
    subst hb
    split
    · exact State.expireClaim_awaits hx hp
    · exact ⟨x, hx, hp⟩
  · exact ⟨x, hx, hp⟩

/-- A record that waits for its enable carries from the boundary on. -/
theorem State.boundary_awaits {s : State} {h : Nat} {x : PathRec × Bool}
    (hs : Sparse.rising s.counted.ptb.paths = true) (hx : s.counted.shown h = some x) (hp : x.1.Awaits) :
    ∃ r, s.boundary.path h = some r ∧ r.role = .loc ∧ r.state = .carrying ∧ r.enablePending = false := by
  obtain ⟨hhead, hends⟩ := rested_headStepped hp.atRest
  have hmeets := (State.Meets.refl hs hx).headSteps hends
  have hall := State.Reworks.forPaths (f := State.monitorStep) (fun _ _ => .monitorStep rfl) s.counted.headSteps
  obtain ⟨u, hu, hshown⟩ := State.forPaths_shown (f := State.monitorStep) (fun _ _ => .monitorStep rfl) hmeets.rising
    (State.path_of_shown hmeets.shown).1
  obtain ⟨y, hy, hyp⟩ := State.monitorStep_awaits ((hu.shown_eq (by simp)).trans hmeets.shown) (hp.of_rested hhead)
  have hmon : s.counted.Meets (s.counted.headSteps.forPaths State.monitorStep) h y :=
    ⟨hmeets.reworks.trans hall, (hall.handles_eq hmeets.rising).2, hshown.trans hy⟩
  obtain ⟨busy, htail⟩ := hmon.tailSteps
  rw [← State.stepRecords_eq] at htail
  obtain ⟨hrole, hstate, hen⟩ := hyp.of_rested (rested_tailStepped hyp.atRest s.counted.cbl.guard s.counted.mayCreate busy)
  set z := tailStepped s.counted.cbl.guard s.counted.mayCreate busy y with hz
  have henable : z.1.localEnable = { z.1 with enablePending := false, state := .carrying } := by
    unfold PathRec.localEnable
    rw [if_pos ⟨hrole, hen⟩, if_pos hstate]
  have hseeks : z.1.localEnable.seeks = false := PathRec.seeks_localEnable (PathRec.seeks_of_role (by simp [hrole]))
  have hpath := (State.path_of_shown (htail.boundary fun _ => hseeks)).1
  rw [henable] at hpath
  exact ⟨_, hpath, hrole, rfl, rfl⟩

/-- What FRAME_START makes of a LOCAL record whose enable is pending, at a boundary and at another frame start. -/
theorem State.startFrame_awaits {s : State} {h : Nat} {p : PathRec} (hs : Sparse.rising s.ptb.paths = true)
    (hp : s.path h = some p) (ha : p.Awaits) (t num : Nat) : ∃ q, (s.startFrame t num).path h = some q ∧
      (num = 0 → q.state = .carrying ∧ q.enablePending = false ∧ q.liveF = true) ∧
      (num ≠ 0 → q.state = .defined ∧ q.enablePending = true ∧ q.liveF = false) := by
  have hspares : ∀ q ∈ s.hwy.sendQ, p.sparedBy q.msg := fun q _ b _ => .inr (by simp [ha.1])
  rw [State.startFrame_eq]
  by_cases hn : num = 0
  · subst hn
    obtain ⟨m, a, b, c, w, q, hcounted, hrise, _⟩ := State.shown_counted hs hp hspares t
    obtain ⟨r, hr, hrole, hstate, hen⟩ := State.boundary_awaits hrise hcounted (show (p.ended m a b c w q).Awaits from ha)
    obtain ⟨q', hq', hsteady, hlive, _⟩ := State.path_beginFrame hr s.ftm.frame
    have hrl : r.live = true := by rw [PathRec.live, hrole, hstate]; rfl
    rw [if_pos rfl]
    exact ⟨q', hq', fun _ => ⟨(congrArg PathRec.state hsteady :).trans hstate,
      (congrArg PathRec.enablePending hsteady :).trans hen, hlive.trans hrl⟩, fun h => absurd rfl h⟩
  · obtain ⟨hended, _⟩ := State.shown_ended hs hp hspares t num
    obtain ⟨m, a, b, c, w, q, he, _⟩ := p.ending_eq s.hwy.passed s.mayCreate s.ftm.frame
    rw [he] at hended
    have hrest : (p.ended m a b c w q).Awaits := ha
    obtain ⟨q', hq', hsteady, hlive, _⟩ := State.path_beginFrame (State.path_of_shown hended).1 s.ftm.frame
    rw [if_neg hn]
    exact ⟨q', hq', fun h => absurd h hn, fun _ => ⟨(congrArg PathRec.state hsteady :).trans hrest.2.1,
      (congrArg PathRec.enablePending hsteady :).trans hrest.2.2, hlive.trans hrest.atRest.live_eq⟩⟩

/-! ### The runs driven (R111, R153) -/

/-- The drives taken for a record. -/
theorem State.mem_drivesOf {s : State} {g : Nat} {p : PathRec} {d : Drive} (hd : d ∈ s.drivesOf g p) :
    d.handle = g ∧ d.tag = p.tag ∧ d.k = p.k ∧ p.role = .source ∧ p.live = true := by
  obtain ⟨r, hr, rfl⟩ := List.mem_map.mp hd
  have hlive : p.role = .source ∧ p.live = true := by
    by_contra hc
    rw [PathRec.runs, if_neg hc] at hr
    cases hr
  exact ⟨rfl, rfl, rfl, hlive⟩

theorem State.drivesOf_runs (s : State) (g : Nat) (p : PathRec) :
    ((s.drivesOf g p).filter (fun d => d.handle == g)).map (fun d => (d.first, d.retired)) = p.runs := by
  have hall : (s.drivesOf g p).filter (fun d => d.handle == g) = s.drivesOf g p :=
    List.filter_eq_self.mpr fun d hd => beq_iff_eq.mpr (State.mem_drivesOf hd).1
  rw [hall, State.drivesOf, List.map_map]
  exact List.map_id _

theorem State.drivesOf_other (s : State) {g h : Nat} (p : PathRec) (hg : g ≠ h) :
    (s.drivesOf g p).filter (fun d => d.handle == h) = [] :=
  List.filter_eq_nil_iff.mpr fun d hd => by simp [(State.mem_drivesOf hd).1, hg]

/-- Of the drives of a table, a path's are those of its record. -/
theorem State.drives_of_table (s : State) {h : Nat} {p : PathRec} : ∀ {m : Sparse PathRec}, Sparse.rising m = true →
    Sparse.find m h = some p →
    ((m.flatMap fun e => s.drivesOf e.1 e.2).filter (fun d => d.handle == h)).map (fun d => (d.first, d.retired)) = p.runs
  | [], _, hf => nomatch hf
  | (g, q) :: r, hm, hf => by
    rw [List.flatMap_cons, List.filter_append, List.map_append]
    by_cases hg : g = h
    · subst hg
      have hq : q = p := by simpa [Sparse.find] using hf
      subst hq
      have hrest : (r.flatMap fun e => s.drivesOf e.1 e.2).filter (fun d => d.handle == g) = [] := by
        rw [List.filter_eq_nil_iff]
        intro d hd
        obtain ⟨⟨k, v⟩, hmem, hd⟩ := List.mem_flatMap.mp hd
        have hlt : g < k := by
          have hpair := (Sparse.rising_iff_pairwise _).mp hm
          rw [Sparse.keys, List.map_cons, List.pairwise_cons] at hpair
          exact hpair.1 k (List.mem_map.mpr ⟨(k, v), hmem, rfl⟩)
        rw [(State.mem_drivesOf hd).1]
        simp only [beq_iff_eq]
        omega
      rw [hrest, List.map_nil, List.append_nil, State.drivesOf_runs]
    · rw [State.drivesOf_other s q hg, List.map_nil, List.nil_append]
      exact s.drives_of_table (Sparse.rising_tail hm) (by simpa [Sparse.find, hg] using hf)

theorem State.takeDrives_drives (s : State) : s.takeDrives.hwy.station = s.hwy.station ∧ s.takeDrives.hwy.drives =
    if s.hwy.station = .joined then s.ptb.paths.flatMap (fun e => s.drivesOf e.1 e.2) else [] := ⟨rfl, rfl⟩

/-- The runs that are driven in a frame are those of the records as it begins. -/
theorem State.beginFrame_drives {s : State} (hs : Sparse.rising s.ptb.paths = true) (n : Nat) :
    ((s.beginFrame n).hwy.station ≠ .joined → (s.beginFrame n).hwy.drives = []) ∧
    (∀ d ∈ (s.beginFrame n).hwy.drives, ∃ p, (s.beginFrame n).path d.handle = some p ∧ p.role = .source ∧ p.live = true ∧
      d.tag = p.tag ∧ d.k = p.k) ∧
    ((s.beginFrame n).hwy.station = .joined → ∀ h p, (s.beginFrame n).path h = some p →
      (s.beginFrame n).drivesFor h = p.runs) := by
  have hrise := ((s.handed_sameSteady n).handles hs).2
  rw [State.beginFrame_eq]
  set v := s.handed n with hv
  have hhwy := v.takeDrives.freshened_blocks.1
  have hpath (h : Nat) : v.takeDrives.freshened.path h =
      (v.path h).map (fun p => (v.takeDrives.freshPath p).noteDefect) := by
    rw [State.path_freshened, State.path_takeDrives]
  have hfields (p : PathRec) := PathRec.fields_of_steady
    ((v.takeDrives.freshPath p).steady_noteDefect.trans (v.takeDrives.steady_freshPath p))
  obtain ⟨hstation, hdrives⟩ := v.takeDrives_drives
  rw [hhwy, hstation]
  refine ⟨fun hst => hdrives.trans (if_neg hst), fun d hd => ?_, fun hst h p hp => ?_⟩
  · rw [hdrives] at hd
    by_cases hst : v.hwy.station = .joined
    · rw [if_pos hst] at hd
      obtain ⟨⟨g, p⟩, hmem, hdp⟩ := List.mem_flatMap.mp hd
      obtain ⟨hh, htag, hk, hrole, hlive⟩ := State.mem_drivesOf hdp
      obtain ⟨htag', hrole', hk', _, hlive', _⟩ := hfields p
      refine ⟨(v.takeDrives.freshPath p).noteDefect, ?_, hrole'.trans hrole, hlive'.trans hlive, htag.trans htag'.symm,
        hk.trans hk'.symm⟩
      rw [hpath, hh, show v.path g = some p from Sparse.find_of_mem hrise hmem]
      rfl
    · rw [if_neg hst] at hd
      cases hd
  · rw [hpath] at hp
    obtain ⟨q, hq, rfl⟩ := Option.map_eq_some_iff.mp hp
    obtain ⟨_, hrole, _, _, hlive, _, hcells, hmove, _⟩ := hfields q
    have hruns : (v.takeDrives.freshPath q).noteDefect.runs = q.runs := by
      simp only [PathRec.runs, hrole, hlive, hcells, hmove]
    rw [hruns, State.drivesFor, hhwy, hdrives, if_pos hst]
    exact v.drives_of_table hrise hq

/-- The runs of a live SOURCE record (R111, R153). -/
theorem PathRec.runs_of_live {p : PathRec} {x : Nat} (hr : p.role = .source) (hl : p.live = true)
    (hx : p.hw.cells = some x) : (p.hw.move = none → p.runs = [(x, false)]) ∧
    (∀ m y, p.hw.move = some m → m.new = some y →
      (m.phase = .bridge → p.runs = [(x, false), (y, false)]) ∧
      (m.phase = .retiring → p.runs = [(x, true), (y, false)]) ∧
      (m.phase ≠ .bridge → m.phase ≠ .retiring → p.runs = [(x, false)])) := by
  refine ⟨fun hm => ?_, fun m y hm hy => ⟨fun hp => ?_, fun hp => ?_, fun hb hr' => ?_⟩⟩
  · simp [PathRec.runs, hr, hl, hx, hm]
  · simp [PathRec.runs, hr, hl, hx, hm, hy, hp]
  · simp [PathRec.runs, hr, hl, hx, hm, hy, hp]
  · cases hp : m.phase with
    | bridge => exact absurd hp hb
    | retiring => exact absurd hp hr'
    | _ => simp [PathRec.runs, hr, hl, hx, hm, hp]

/-! ### The three events that start a frame (R3, R5, R9) -/

theorem State.nextFrame_pulsed (s : State) (t : Nat) : (s.setFtm (s.ftm.pulsed t)).nextFrame = s.nextFrame := rfl

theorem State.trackingPulse_unmarked (s : State) (t : Nat) :
    s.trackingPulse t false = (s.setFtm (s.ftm.pulsed t)).startFrame t s.nextFrame := by
  rw [← s.nextFrame_pulsed t]
  simp only [State.trackingPulse, Ftm.pulsed, Bool.false_and, Bool.false_eq_true, if_false,
    State.setFtm_setFtm, State.setFtm_ftm]

/-- The frame of a pulse starts at it, and the period is measured from the pulse of the frame before. -/
theorem State.startFrame_pulsed {s : State} (hT : s.TablesOk) (t : Nat) :
    ((s.setFtm (s.ftm.pulsed t)).startFrame t s.nextFrame).frameStarted s t ∧
    ((s.setFtm (s.ftm.pulsed t)).startFrame t s.nextFrame).ftm.miss = 0 ∧
    ((s.setFtm (s.ftm.pulsed t)).startFrame t s.nextFrame).ftm.period = (s.ftm.pulsed t).period := by
  have hstarted := State.frameStarted_startFrame (s := s.setFtm (s.ftm.pulsed t)) hT t
  obtain ⟨hmiss, hperiod⟩ := (s.setFtm (s.ftm.pulsed t)).startFrame_miss t s.nextFrame
  rw [State.setFtm_ftm] at hmiss hperiod
  rw [s.nextFrame_pulsed t] at hstarted
  generalize (s.setFtm (s.ftm.pulsed t)).startFrame t s.nextFrame = u at hstarted hmiss hperiod
  exact ⟨hstarted, hmiss, hperiod⟩

/-- An in-window pulse in TRACKING without a marker. -/
theorem exec_inWindowPulse_unmarked {s : State} {t : Nat} (hs : s.ftm.timer = .tracking) (hw : s.ftm.inWindow t = true) :
    exec (.inWindowPulse t false) s = .next ((s.setFtm (s.ftm.pulsed t)).startFrame t s.nextFrame) := by
  refine (if_pos hw).trans (congrArg Host.Outcome.next ?_)
  rw [← State.trackingPulse_unmarked]
  simp only [hs]

/-- A window that closes empty, short of the third miss. -/
theorem exec_missingPulse_short {s : State} (hs : s.ftm.timer = .tracking) (hm : s.ftm.miss + 1 < 3) :
    ∃ v, v = s.startFrame (s.ftm.lastStart + s.ftm.period) s.nextFrame ∧ exec .missingPulse s =
      .next (v.setFtm { v.ftm with miss := v.ftm.miss + 1, lastPulse := none }) := by
  refine ⟨_, rfl, congrArg Host.Outcome.next ?_⟩
  set v := s.startFrame (s.ftm.lastStart + s.ftm.period) s.nextFrame with hv
  have hmiss : ¬ 3 ≤ v.ftm.miss + 1 := by
    rw [hv, (s.startFrame_miss _ _).1]
    omega
  have hshort : v.trackingMiss = v.setFtm { v.ftm with miss := v.ftm.miss + 1, lastPulse := none } := if_neg hmiss
  rw [← hshort]
  simp only [hs]

/-- Settles O7. -/
theorem frameStartsAdvanceTimer : Obligations.FrameStartsAdvanceTimer := by
  intro s hT
  have hexec : exec .frameStart s = .next (s.startFrame (s.ftm.lastStart + s.ftm.period) s.nextFrame) := rfl
  refine ⟨⟨_, hexec, State.frameStarted_startFrame hT _, s.startFrame_miss _ _⟩, fun t hs hw => ?_, fun hs hm => ?_,
    fun h p hp hr he hst => ?_, ⟨_, hexec, ?_⟩⟩
  · obtain ⟨hstarted, hmiss, hperiod⟩ := State.startFrame_pulsed hT t
    exact ⟨_, exec_inWindowPulse_unmarked hs hw, hstarted, hmiss, hperiod⟩
  · obtain ⟨v, hv, hrun⟩ := exec_missingPulse_short hs hm
    have hstarted := State.frameStarted_startFrame hT (s.ftm.lastStart + s.ftm.period)
    obtain ⟨hmiss, hperiod⟩ := s.startFrame_miss (s.ftm.lastStart + s.ftm.period) s.nextFrame
    rw [← hv] at hstarted hmiss hperiod
    exact ⟨_, hrun, hstarted, congrArg (· + 1) hmiss, hperiod⟩
  · obtain ⟨q, hq, hboundary, hother⟩ := State.startFrame_awaits hT.1 hp ⟨hr, hst, he⟩ (s.ftm.lastStart + s.ftm.period)
      s.nextFrame
    exact ⟨_, q, hexec, hq, hboundary, hother⟩
  · set t := s.ftm.lastStart + s.ftm.period with ht
    obtain ⟨hfixed, _⟩ := s.ended_fixed t s.nextFrame
    set w := (if s.nextFrame = 0 then (s.ended t s.nextFrame).boundary else s.ended t s.nextFrame) with hw
    have hrise : Sparse.rising w.ptb.paths = true := by
      have hended := (hfixed.handles hT.1).2
      rw [hw]
      split
      · obtain ⟨hc, _⟩ := (s.ended t s.nextFrame).counted_cases
        exact ((s.ended t s.nextFrame).boundary_reworks.handles_eq (hc.handles hended).2).2
      · exact hended
    have hstart : s.startFrame t s.nextFrame = w.beginFrame s.ftm.frame := s.startFrame_eq t s.nextFrame
    obtain ⟨hnone, hmem, hruns⟩ := State.beginFrame_drives hrise s.ftm.frame
    rw [hstart]
    refine ⟨hnone, hmem, fun hj h p x hp hr hl hx => ?_⟩
    rw [hruns hj h p hp]
    exact PathRec.runs_of_live hr hl hx

end Sys2Proof.Machine
